-- ==== Sys2Proof/Syntax.lean ====
section
/-! DEFINITION. The commands of VPCORE, one constructor per row of spec/opcode_table.json (30_encoding R108). -/

namespace Sys2Proof

/-- A command. Operands are unsigned numbers (30_encoding R107); which numbers fit their fields is `Instr.wellFormed`. -/
inductive Instr where
  /-- NOP (40_control R130). -/
  | nop
  /-- INIT (40_control R131). -/
  | init
  /-- CLEAR (40_control R135). -/
  | clear
  /-- FIR_RUN L (42_fir R186): L samples. -/
  | firRun (l : Nat)
  /-- ANALYZE (43_spectral R211). -/
  | analyze
  /-- CHUNK (45_decoder R266). -/
  | chunk
  /-- CAND_PUSH CNT, LCNT (45_decoder R267): record entry counts. -/
  | candPush (cnt lcnt : Nat)
  /-- RS_ENC D, K (41_reed_solomon R158): data and parity byte counts. -/
  | rsEnc (d k : Nat)
  /-- RS_DEC D, K (41_reed_solomon R162): data and parity byte counts. -/
  | rsDec (d k : Nat)
  /-- SYNTH SYM (44_synth R234): a symbol 0..15. -/
  | synth (sym : Nat)
deriving DecidableEq, Repr

end Sys2Proof
end

