-- ==== Sys2Proof/WellFormed.lean ====
section
/-! DEFINITION. Which commands have an encoding: every operand fits its field (30_encoding R103-R107, R116). -/

namespace Sys2Proof

/-- R116: "An assembler refuses an operand that does not fit its field: L > 65535, CNT or LCNT > 3, D or K > 255, or SYM > 15." -/
def Instr.wellFormed : Instr → Bool
  | .nop => true
  | .init => true
  | .clear => true
  | .firRun l => decide (l ≤ 65535)
  | .analyze => true
  | .chunk => true
  | .candPush cnt lcnt => decide (cnt ≤ 3) && decide (lcnt ≤ 3)
  | .rsEnc d k => decide (d ≤ 255) && decide (k ≤ 255)
  | .rsDec d k => decide (d ≤ 255) && decide (k ≤ 255)
  | .synth sym => decide (sym ≤ 15)

end Sys2Proof
end

