-- ==== Sys2Proof/Word.lean ====
section
/-! DEFINITION. The word types of VPCORE (00_scope R9, 10_state section 2, 20_memory R80). -/

namespace Sys2Proof

/-- A byte of a buffer (20_memory R84) and an element of GF(2^8) (41_reed_solomon R150). -/
abbrev Byte := BitVec 8

/-- A 16-bit sample (20_memory R84) or a 16-bit bin field of a register (10_state R47). -/
abbrev Half := BitVec 16

/-- A 32-bit register or command word (10_state section 2, 30_encoding R100). -/
abbrev Word := BitVec 32

/-- A byte offset inside the 64 KiB VPCORE window (20_memory R80). -/
abbrev Offset := BitVec 16

end Sys2Proof
end

