-- ==== Sys2Proof/Decode.lean ====
section
/-! DEFINITION. The command decoder (30_encoding R100-R109, R118) and the encoder (R116). -/

namespace Sys2Proof

/-- What a 32-bit word is (R118): a command, or one of the two decode errors of R109. -/
inductive Decoded where
  | ok (i : Instr)
  /-- OP is 0x07 or 0x0B..0xFF (R109 step 1). -/
  | illegalOp
  /-- A reserved bit of the format is 1 (R109 step 2). -/
  | reservedField
deriving DecidableEq, Repr

/-- OP = w[7:0] (R101). -/
def opField (w : Word) : Nat := (w.extractLsb' 0 8).toNat
/-- L = w[31:16] (R103). -/
def lField (w : Word) : Nat := (w.extractLsb' 16 16).toNat
/-- CNT = w[9:8] (R104). -/
def cntField (w : Word) : Nat := (w.extractLsb' 8 2).toNat
/-- LCNT = w[11:10] (R104). -/
def lcntField (w : Word) : Nat := (w.extractLsb' 10 2).toNat
/-- K = w[15:8] (R105). -/
def kField (w : Word) : Nat := (w.extractLsb' 8 8).toNat
/-- D = w[23:16] (R105). -/
def dField (w : Word) : Nat := (w.extractLsb' 16 8).toNat
/-- SYM = w[11:8] (R106). -/
def symField (w : Word) : Nat := (w.extractLsb' 8 4).toNat

/-- R109 step 2 for the row (pattern, mask) that OP selected: RESERVED_FIELD unless `(w & mask) = match`. -/
def selectRow (w pattern mask : Word) (i : Instr) : Decoded :=
  if w &&& mask = pattern then .ok i else .reservedField

/-- The decoder (R109, in its order), one line per row of the opcode map R108. -/
def decode (w : Word) : Decoded :=
  match opField w with
  | 0x00 => selectRow w 0x00000000 0xFFFFFFFF .nop
  | 0x01 => selectRow w 0x00000001 0xFFFFFFFF .init
  | 0x02 => selectRow w 0x00000002 0xFFFFFFFF .clear
  | 0x03 => selectRow w 0x00000003 0x0000FFFF (.firRun (lField w))
  | 0x04 => selectRow w 0x00000004 0xFFFFFFFF .analyze
  | 0x05 => selectRow w 0x00000005 0xFFFFFFFF .chunk
  | 0x06 => selectRow w 0x00000006 0xFFFFF0FF (.candPush (cntField w) (lcntField w))
  | 0x08 => selectRow w 0x00000008 0xFF0000FF (.rsEnc (dField w) (kField w))
  | 0x09 => selectRow w 0x00000009 0xFF0000FF (.rsDec (dField w) (kField w))
  | 0x0A => selectRow w 0x0000000A 0xFFFFF0FF (.synth (symField w))
  | _ => .illegalOp

/-- The match value of a command's row (R108). -/
def rowPattern : Instr → Word
  | .nop => 0x00000000
  | .init => 0x00000001
  | .clear => 0x00000002
  | .firRun _ => 0x00000003
  | .analyze => 0x00000004
  | .chunk => 0x00000005
  | .candPush _ _ => 0x00000006
  | .rsEnc _ _ => 0x00000008
  | .rsDec _ _ => 0x00000009
  | .synth _ => 0x0000000A

/-- The mask of a command's row (R108). -/
def rowMask : Instr → Word
  | .nop => 0xFFFFFFFF
  | .init => 0xFFFFFFFF
  | .clear => 0xFFFFFFFF
  | .firRun _ => 0x0000FFFF
  | .analyze => 0xFFFFFFFF
  | .chunk => 0xFFFFFFFF
  | .candPush _ _ => 0xFFFFF0FF
  | .rsEnc _ _ => 0xFF0000FF
  | .rsDec _ _ => 0xFF0000FF
  | .synth _ => 0xFFFFF0FF

/-- The encoding function enc (R116), on well-formed commands. -/
def encode : Instr → Word
  | .nop => 0x00000000
  | .init => 0x00000001
  | .clear => 0x00000002
  | .firRun l => 0x03 ||| (BitVec.ofNat 32 l <<< 16)
  | .analyze => 0x00000004
  | .chunk => 0x00000005
  | .candPush cnt lcnt => 0x06 ||| (BitVec.ofNat 32 cnt <<< 8) ||| (BitVec.ofNat 32 lcnt <<< 10)
  | .rsEnc d k => 0x08 ||| (BitVec.ofNat 32 k <<< 8) ||| (BitVec.ofNat 32 d <<< 16)
  | .rsDec d k => 0x09 ||| (BitVec.ofNat 32 k <<< 8) ||| (BitVec.ofNat 32 d <<< 16)
  | .synth sym => 0x0A ||| (BitVec.ofNat 32 sym <<< 8)

/-- The host assembler (R116): it refuses an operand that does not fit its field. -/
def assemble (i : Instr) : Option Word :=
  if i.wellFormed then some (encode i) else none

/-- The command read from an instruction of `nbits` bits w, bit 0 the least significant: VPCORE's one command length
is 32 bits (R100), so the bits above `nbits` are 0. -/
def decodeTableWord (nbits w : Nat) : Option Instr :=
  match decode (BitVec.ofNat 32 (w % 2 ^ nbits)) with
  | .ok i => some i
  | .illegalOp => none
  | .reservedField => none

end Sys2Proof
end

