-- ==== Sys2Proof/Machine/RsCodec.lean ====
section
/-! DEFINITION. The Reed–Solomon codec (41_reed_solomon R150 to R161): the field GF(2^8) by its log and antilog tables,
the generator, the encoder, the syndromes, and the decoder of R160 with the algorithm of R161 as its search. -/

namespace Sys2Proof.Machine

/-! ### The field (R150 to R152) -/

/-- GF_POLY (R150). -/
def gfPoly : Nat := 0x11D

/-- One turn of R151's loop on sr: shift left, and reduce by GF_POLY when bit 8 is set. -/
def gfNext (sr : Nat) : Nat := if (sr <<< 1).testBit 8 then (sr <<< 1) ^^^ gfPoly else sr <<< 1

/-- R151's loop from turn i with value sr. Each table is kept as one number, entry j in its bits [8j+7 : 8j], so that
reading an entry is one shift; the pair is (ALPHA_TO, INDEX_OF). -/
def gfTableLoop : Nat → Nat → Nat → Nat × Nat → Nat × Nat
  | 0, _, _, t => t
  | turns + 1, i, sr, t => gfTableLoop turns (i + 1) (gfNext sr) (t.1 ||| sr <<< (8 * i), t.2 ||| i <<< (8 * sr))

/-- The tables of R151, with the sentinels ALPHA_TO[255] = 0 and INDEX_OF[0] = 255. -/
def gfTables : Nat × Nat := gfTableLoop 255 0 1 (0, 255)

/-- ALPHA_TO[i] (R151). -/
def alphaTo (i : Nat) : Byte := BitVec.ofNat 8 (gfTables.1 >>> (8 * i))

/-- INDEX_OF[v] (R151). -/
def indexOf (v : Byte) : Nat := (gfTables.2 >>> (8 * v.toNat)) % 256

/-- a ⊗ b (R152). -/
def gfMul (a b : Byte) : Byte := if a = 0 ∨ b = 0 then 0 else alphaTo ((indexOf a + indexOf b) % 255)

/-- a ⊘ b for b ≠ 0 (R152); no rule divides by 0. -/
def gfDiv (a b : Byte) : Byte := if a = 0 then 0 else alphaTo ((indexOf a + 255 - indexOf b) % 255)

/-- inv(b) = 1 ⊘ b (R152). -/
def gfInv (b : Byte) : Byte := gfDiv 1 b

/-- α^e for an exponent e ≥ 0 (R152). -/
def alphaPow (e : Nat) : Byte := alphaTo (e % 255)

/-- α^(−q) (R152). -/
def alphaInvPow (q : Nat) : Byte := alphaTo ((255 - q % 255) % 255)

/-! ### Polynomials over the field, coefficients from x^0 upward -/

/-- The sum of two polynomials. -/
def polyAdd : List Byte → List Byte → List Byte
  | [], q => q
  | p, [] => p
  | a :: p, b :: q => (a ^^^ b) :: polyAdd p q

/-- A polynomial times a field element. -/
def polyScale (a : Byte) (p : List Byte) : List Byte := p.map (gfMul a)

/-- A polynomial times x^m. -/
def polyShift (m : Nat) (p : List Byte) : List Byte := List.replicate m 0 ++ p

/-- The product of two polynomials. -/
def polyMul : List Byte → List Byte → List Byte
  | [], _ => []
  | a :: p, q => polyAdd (polyScale a q) (0 :: polyMul p q)

/-- The value of a polynomial at x. -/
def polyEval (p : List Byte) (x : Byte) : Byte := p.foldr (fun c acc => c ^^^ gfMul x acc) 0

/-- The largest i with a nonzero coefficient, 0 for none (R161 step 2). -/
def polyDeg (p : List Byte) : Nat := (p.reverse.dropWhile (fun c => decide (c = 0))).length - 1

/-- The formal derivative in characteristic 2: the odd coefficients, each one degree lower (R161 step 6). -/
def polyDeriv : List Byte → List Byte
  | [] => []
  | [_] => []
  | _ :: c1 :: rest => c1 :: 0 :: polyDeriv rest

/-! ### The code (R154 to R157) -/

/-- g(x) = Π_{i=1}^{K} (x ⊕ α^i) (R154 with FCR = PRIM = 1), K + 1 coefficients from x^0. -/
def genPoly : Nat → List Byte
  | 0 => [1]
  | k + 1 => polyAdd (0 :: genPoly k) (polyScale (alphaPow (k + 1)) (genPoly k))

/-- One data byte into the shift register of R156: `taps` is gc[K−1], …, gc[0]. -/
def encodeByte (taps reg : List Byte) (d : Byte) : List Byte :=
  let fb := d ^^^ reg.headD 0
  List.zipWith (fun r g => r ^^^ gfMul fb g) (reg.drop 1 ++ [0]) taps

/-- parity = Encode(d, K) (R156), the shift-register form. -/
def rsEncode (d : List Byte) (k : Nat) : List Byte :=
  let taps := ((genPoly k).take k).reverse
  d.foldl (encodeByte taps) (List.replicate k 0)

/-- The coefficient list of a buffer as a polynomial evaluated at x: c[0] is the highest degree (R155). -/
def bufEval (r : List Byte) (x : Byte) : Byte := r.foldl (fun acc c => gfMul acc x ^^^ c) 0

/-- S_1, …, S_K (R157). -/
def syndromes (r : List Byte) (k : Nat) : List Byte := (List.range k).map (fun j => bufEval r (alphaPow (j + 1)))

/-- Membership in the code 𝒞 of R160: the buffer is `d ++ Encode(d, K)` for its first D bytes d. -/
def isCodeword (c : List Byte) (d k : Nat) : Bool := decide (c.drop d = rsEncode (c.take d) k)

/-- dist(r, c): the number of indices where two buffers differ (R160). -/
def rsDist : List Byte → List Byte → Nat
  | a :: r, b :: c => (if a = b then 0 else 1) + rsDist r c
  | _, _ => 0

/-! ### The search of R161 -/

/-- The running state of Berlekamp–Massey (R161 step 2). -/
structure BmState where
  lam : List Byte
  prevLam : List Byte
  len : Nat
  gap : Nat
  prevDisc : Byte

/-- One syndrome into Berlekamp–Massey; `prev` are the earlier syndromes, newest first. -/
def bmStep (b : BmState) (prev : List Byte) (n : Nat) (syn : Byte) : BmState :=
  let disc := (List.zipWith gfMul (b.lam.drop 1) prev).foldl (· ^^^ ·) syn
  if disc = 0 then { b with gap := b.gap + 1 }
  else
    let lam' := polyAdd b.lam (polyShift b.gap (polyScale (gfDiv disc b.prevDisc) b.prevLam))
    if 2 * b.len ≤ n then ⟨lam', b.lam, n + 1 - b.len, 1, disc⟩
    else { b with lam := lam', gap := b.gap + 1 }

/-- Berlekamp–Massey over the syndromes from number n on. -/
def bmLoop : List Byte → List Byte → Nat → BmState → BmState
  | [], _, _, b => b
  | syn :: rest, prev, n, b => bmLoop rest (syn :: prev) (n + 1) (bmStep b prev n syn)

/-- The error locator λ (R161 step 2). -/
def errorLocator (syns : List Byte) : List Byte := (bmLoop syns [] 0 ⟨[1], [1], 0, 1, 1⟩).lam

/-- The degrees q in 0..254 whose α^(−q) is a root of λ (R161 step 4). -/
def chienSearch (lam : List Byte) : List Nat :=
  (List.range 255).filter (fun q => decide (polyEval lam (alphaInvPow q) = 0))

/-- The error value at degree q by Forney's formula with FCR = 1 (R161 step 6). -/
def forneyValue (omega lam : List Byte) (q : Nat) : Byte :=
  gfDiv (polyEval omega (alphaInvPow q)) (polyEval (polyDeriv lam) (alphaInvPow q))

/-- c[n−1−q] <- r[n−1−q] ⊕ e for each located degree q (R161 step 6). -/
def applyErrors (n : Nat) (omega lam : List Byte) (qs : List Nat) (r : List Byte) : List Byte :=
  qs.foldl (fun c q => c.modify (n - 1 - q) (fun b => b ^^^ forneyValue omega lam q)) r

/-- The candidate codeword that the algorithm of R161 finds for a buffer that is no codeword, if its checks pass. -/
def rsSearch (r : List Byte) (d k : Nat) : Option (List Byte) :=
  let n := d + k
  let syns := syndromes r k
  let lam := errorLocator syns
  let deg := polyDeg lam
  if deg = 0 then none
  else
    let qs := chienSearch lam
    if qs.length ≠ deg then none
    else if k / 2 < deg then none
    else if qs.any (fun q => decide (n ≤ q)) then none
    else
      let omega := (polyMul syns lam).take k
      some (applyErrors n omega lam qs r)

/-- Decode(r, D, K) (R160): a codeword within distance K div 2, with the distance, or none for Reject. R161's search
proposes the codeword; membership and distance are tested as R160 states them (log 11). -/
def rsDecode (r : List Byte) (d k : Nat) : Option (Nat × List Byte) :=
  if isCodeword r d k then some (0, r)
  else
    match rsSearch r d k with
    | none => none
    | some c => if isCodeword c d k && decide (rsDist r c ≤ k / 2) then some (rsDist r c, c) else none

end Sys2Proof.Machine
end

