-- ==== Sys2Proof/Config.lean ====
section
/-! DEFINITION. What one VPCORE fixes and software cannot write (00_scope R6, 10_state R31): the types of the
configuration record CFG and of the numeric datapath NUM, and the FREE constants that stand for the parts of them
that the spec leaves open. A free constant has no body: a claim that mentions one holds for every value of it. -/

namespace Sys2Proof

/-- The three bands (00_scope R19: "one of three disjoint frequency ranges (Low/Mid/High)"). -/
inductive Band where
  | low
  | mid
  | high
deriving DecidableEq, Repr, Inhabited

/-- The FIR type of a band (42_fir R180). -/
inductive FilterType where
  | lowpass
  | highpass
deriving DecidableEq, Repr, Inhabited

/-- The OPEN constants of one band (00_scope R6): FFT_SIZE[b], FREQ[b][0..15], GUARD[b], FC[b], FTYPE[b], STONE[b][0..1]. -/
structure BandCfg where
  fftSize : Nat
  freq : List Nat
  guard : Nat
  fc : Nat
  ftype : FilterType
  stone0 : Nat
  stone1 : Nat
deriving DecidableEq, Repr, Inhabited

/-- The OPEN part of the configuration record CFG (00_scope R6). The values that R6 states (RATE, OVL, FIR_TAPS,
GF_POLY, the capacities) are plain definitions of Machine/Params.lean and Machine/RsCodec.lean. -/
structure Cfg where
  low : BandCfg
  mid : BandCfg
  high : BandCfg
  sync0 : Byte
  sync1 : Byte
  synAmp : Nat
deriving DecidableEq, Repr, Inhabited

/-- The elementary functions the formulas of R181, R203 and R231 use, over a number type K: π, and the cosine and
sine of an angle given as an exact fraction of a whole turn (`cosTurn x` is cos(2πx)). -/
structure Trig (K : Type) where
  pi : K
  cosTurn : Rat → K
  sinTurn : Rat → K
deriving Inhabited

/-- The numeric type NUM of one implementation (00_scope R13, R14; 93 N1): its approximations of the elementary
functions, and for each of the four approximated quantities the difference between the formula over those functions
and what the implementation computes, as a function of exactly the inputs N1 states. -/
structure Numerics where
  trig : Trig Rat
  /-- of h: FC, FTYPE, FS, n (R181). -/
  coefError : Nat → FilterType → Nat → Nat → Rat
  /-- of y: H and the 32 tap values (R183). -/
  firError : List Rat → List Int → Rat
  /-- of P: the window contents and the bin k (R203). -/
  powerError : List Rat → Nat → Rat
  /-- of the synthesized value: CFG with its band and rate, the symbol, and n (R231). -/
  toneError : Cfg → Band → Nat → Nat → Nat → Rat
deriving Inhabited

/-- FREE: the configuration record an implementation chose (R6 OPEN, 93 I10; log 4). -/
opaque Config.chosenCfg : Cfg

/-- FREE: the numeric type of the implementation (93 N1; log 5), taken if it meets the bound of 44_synth R233 (log 18). -/
opaque Config.numerics : Numerics

/-- FREE: the contents of the RAM byte at an offset after the reset of the given number (70_reset R340, 93 I1; log 3). -/
opaque Config.ramInit : Nat → Nat → Byte

/-- FREE: BUS_ERR_RESPONSE, whether a BUS error is also signalled on the host bus (93 I5; log 9). -/
opaque Config.busErrSignalled : Bool

/-- FREE: VP_BASE, the host address of offset 0 of the window (20_memory R80, 93 I9; log 10). -/
opaque Config.vpBase : Nat

end Sys2Proof
end

