-- ==== Sys2Proof/Machine/Formulas.lean ====
section
/-! DEFINITION. The formulas of the four approximated quantities (00_scope R13, R14), over any field K that has the
elementary functions: 42_fir R181 and R183, 43_spectral R203, 44_synth R231. Over the reals with the true functions they
are the ideal values (Machine/Ideal.lean); over the rationals with an implementation's functions they are what it approximates. -/

namespace Sys2Proof.Machine

/-- The symmetric Hamming window of `len` points: 0.54 − 0.46 × cos(2π n / (len − 1)) (R181, R231). -/
def hamming {K : Type} [Field K] (t : Trig K) (len n : Nat) : K :=
  ((54 / 100 : Rat) : K) - ((46 / 100 : Rat) : K) * t.cosTurn ((n : Rat) / ((len : Rat) - 1))

/-- sinc(x) = sin(πx) / (πx), sinc(0) = 1 (R181). -/
def sinc {K : Type} [Field K] (t : Trig K) (x : Rat) : K :=
  if x = 0 then 1 else t.sinTurn (x / 2) / (t.pi * (x : K))

/-- lp(n) = 2ν × sinc(2ν(n − c)), ν = FC / FS, c = 15.5 (R181). -/
def lowpassIdeal {K : Type} [Field K] (t : Trig K) (fc fs n : Nat) : K :=
  let ν : Rat := (fc : Rat) / (fs : Rat)
  ((2 * ν : Rat) : K) * sinc t (2 * ν * ((n : Rat) - 31 / 2))

/-- h_n (R181): the windowed low-pass, or its spectral inversion against the delayed all-pass. -/
def firDesign {K : Type} [Field K] (t : Trig K) (ftype : FilterType) (fc fs n : Nat) : K :=
  match ftype with
  | .lowpass => hamming t 32 n * lowpassIdeal t fc fs n
  | .highpass => hamming t 32 n * (sinc t ((n : Rat) - 31 / 2) - lowpassIdeal t fc fs n)

/-- Σ_k H[k] × tap[k] (R183). -/
def firSum {K : Type} [Field K] : List K → List Int → K
  | h :: hs, x :: xs => h * (x : K) + firSum hs xs
  | _, _ => 0

/-- wB(n), the symmetric Blackman window of `len` points (R203). -/
def blackman {K : Type} [Field K] (t : Trig K) (len n : Nat) : K :=
  ((42 / 100 : Rat) : K) - ((50 / 100 : Rat) : K) * t.cosTurn ((n : Rat) / ((len : Rat) - 1))
    + ((8 / 100 : Rat) : K) * t.cosTurn (2 * (n : Rat) / ((len : Rat) - 1))

/-- Σ_{n ≥ from} WB[n] × wB(n) × f(k n / len): the windowed samples against a cosine or sine (R203). -/
def dftPart {K : Type} [Field K] (t : Trig K) (f : Rat → K) (len k : Nat) : Nat → List K → K
  | _, [] => 0
  | n, w :: ws => w * blackman t len n * f ((k : Rat) * (n : Rat) / (len : Rat)) + dftPart t f len k (n + 1) ws

/-- P[k] = Re(X[k])² + Im(X[k])² of the windowed samples (R203). -/
def powerFormula {K : Type} [Field K] (t : Trig K) (len k : Nat) (wb : List K) : K :=
  let re := dftPart t t.cosTurn len k 0 wb
  let im := - dftPart t t.sinTurn len k 0 wb
  re * re + im * im

/-- v(n) = SYN_AMP × wH(n) × sin(2π f n / fs) over a burst of `len` samples (R231). -/
def toneFormula {K : Type} [Field K] (t : Trig K) (amp f fs len n : Nat) : K :=
  (amp : K) * hamming t len n * t.sinTurn ((f : Rat) * (n : Rat) / (fs : Rat))

/-- rne(x): the nearest integer, ties to even (00_scope R15). -/
def rne (x : Rat) : Int :=
  let f := x.floor
  let d := x - (f : Rat)
  if d < 1 / 2 then f
  else if 1 / 2 < d then f + 1
  else if f % 2 = 0 then f else f + 1

/-- sat16(v): clamp to [−32768, 32767] (00_scope R15). -/
def sat16 (v : Int) : Int :=
  if v < -32768 then -32768 else if 32767 < v then 32767 else v

/-- The computed coefficient h_n (R181, R14 (c)). -/
def coefValue (num : Numerics) (ftype : FilterType) (fc fs n : Nat) : Rat :=
  firDesign num.trig ftype fc fs n + num.coefError fc ftype fs n

/-- The computed FIR output y (R183, R14 (a)). A sum of 32 products with zero taps is 0 in any numeric type (log 6). -/
def firValue (num : Numerics) (h : List Rat) (taps : List Int) : Rat :=
  if taps.all (fun x => decide (x = 0)) then 0 else firSum h taps + num.firError h taps

/-- The computed power P[k] (R203, R14 (b)). "An all-zero window gives P ≡ 0" (R205; log 6). -/
def powerValue (num : Numerics) (fft : Nat) (wb : List Rat) (k : Nat) : Rat :=
  if wb.all (fun x => decide (x = 0)) then 0 else powerFormula num.trig fft k wb + num.powerError wb k

/-- The computed synthesized value v(n) before rounding (R231, R14 (d)). "sample(0) = 0" (R231; log 6). -/
def toneValue (num : Numerics) (c : Cfg) (b : Band) (f amp fs len s n : Nat) : Rat :=
  if n = 0 then 0 else toneFormula num.trig amp f fs len n + num.toneError c b fs s n

end Sys2Proof.Machine
end

