-- ==== Sys2Proof/Machine/State.lean ====
section
/-! DEFINITION. The state of VPCORE (10_state, 20_memory section 1, 70_reset section 1) as plain data, its reset value,
and the reasons a step can stop. The fields `events`, `bus` and `epoch` are the model's own; every other field is named by a rule. -/

namespace Sys2Proof.Machine

/-- A memory: (offset, byte) pairs in canonical form, the bytes of CW_BUF, PAYLOAD, IN_BUF and OUT_BUF (20_memory R81, R84)
that something has written since the last reset. An unlisted offset has no written value (93 I1; log 3). -/
abbrev Memory := List Host.Cell

/-- A candidate record: 0, 1 or 2 bins, strongest first (00_scope R16). -/
abbrev Record := List Nat

/-- The size n of a host access (00_scope R11: n ∈ {1, 2, 4}). -/
inductive AccessSize where
  | one
  | two
  | four
deriving DecidableEq, Repr

/-- What can happen next in the total order of 20_memory R89: a host access (00_scope R11), the core's turn
(60_exceptions R303), or the reset input (70_reset R340). The write's value is its low bytes. -/
inductive Event where
  | read (a : Offset) (n : AccessSize)
  | write (a : Offset) (n : AccessSize) (v : Word)
  | core
  | reset
deriving DecidableEq, Repr

/-- The frame-decoder states (10_state R65, 45_decoder R250). -/
inductive DState where
  | awaitingSync
  | decoding
  | frameComplete
  | done
deriving DecidableEq, Repr

/-- The error codes (60_exceptions R300). -/
inductive ErrCode where
  | illegalOp
  | reservedField
  | busy
  | notReady
  | badArg
  | cfgInvalid
  | bus
deriving DecidableEq, Repr

/-- The programmable settings registers, each at the width of its implemented bits: CTRL (10_state R35), FS (R36),
FRAME (R37), MAXCOMB (R38), ABS_RATIO (R39), REL_RATIO (R40). -/
structure Settings where
  ctrl : BitVec 4
  fs : BitVec 17
  frame : BitVec 24
  maxcomb : Word
  absRatio : Word
  relRatio : Word
deriving DecidableEq, Repr

/-- L, the settings latched by the last successful INIT (10_state R59). L.ABS and L.REL are kept as their UQ16.16
register values; the rationals are `Latched.abs` and `Latched.rel`. L.BAND never holds 3, so it is a `Band` (log 16). -/
structure Latched where
  band : Band
  fs : BitVec 17
  n : Byte
  k : Byte
  maxstr : Byte
  maxcomb : Word
  absRatio : Word
  relRatio : Word
  pre : Bool
  fcs : Bool
deriving DecidableEq, Repr

/-- The per-session state, all that clear_session resets but the PAY bytes (40_control R134). -/
structure Session where
  /-- HIST[1..31], HIST[1] first (10_state R62). -/
  hist : List Half
  /-- WB, oldest sample first (10_state R63); an entry beyond the list is 0. -/
  wb : List Rat
  /-- RING, oldest record first (10_state R64); an entry beyond the list is (). -/
  ring : List Record
  /-- LRING, likewise (10_state R64). -/
  lring : List Record
  /-- DSTATE (10_state R65). -/
  dstate : DState
  /-- PROG, read as DEC_PROG (10_state R55, R66). -/
  prog : Nat
  /-- PAY_LEN (10_state R54). -/
  payLen : BitVec 9
  /-- STATUS.PAY_OVF (10_state R42). -/
  payOvf : Bool
  /-- CHUNK_CNT (10_state R51). -/
  chunkCnt : Word
  /-- FRAME_CNT (10_state R52). -/
  frameCnt : Word
  /-- REJECT_CNT (10_state R53). -/
  rejectCnt : Word
  /-- CAND.BIN0 (10_state R47). -/
  candBin0 : Half
  /-- CAND.BIN1 (10_state R47). -/
  candBin1 : Half
  /-- CAND_CNT.CNT (10_state R48). -/
  candCnt : BitVec 2
  /-- CAND_CNT.LCNT (10_state R48). -/
  lagCnt : BitVec 2
deriving DecidableEq, Repr

/-- The model's own: what the last host access was answered with (20_memory R83; log 9). -/
structure BusReply where
  data : Word
  error : Bool
deriving DecidableEq, Repr

/-- The state of one VPCORE. -/
structure State where
  /-- The live settings registers (10_state R35 to R40). -/
  settings : Settings
  /-- L (10_state R59). -/
  latched : Latched
  /-- READY = STATUS.READY (10_state R57). -/
  ready : Bool
  /-- BUSY = STATUS.BUSY (10_state R58). -/
  busy : Bool
  /-- PEND, the accepted command word (10_state R58). -/
  pend : Word
  /-- ERR_FLAGS[6:0] (10_state R43). -/
  errFlags : BitVec 7
  /-- STATUS.ERR_CODE (10_state R42). -/
  errCode : Byte
  /-- IRQ_STATUS[3:0] (10_state R44). -/
  irqStatus : BitVec 4
  /-- IRQ_EN[3:0] (10_state R45). -/
  irqEn : BitVec 4
  /-- RESULT.COUNT (10_state R46). -/
  resultCount : Byte
  /-- RESULT.REJECT (10_state R46). -/
  resultReject : Bool
  /-- CAND_IN (10_state R49). -/
  candIn : Word
  /-- LAG_IN (10_state R50). -/
  lagIn : Word
  /-- H[0..31] (10_state R61). -/
  h : List Rat
  /-- The per-session state (40_control R134). -/
  session : Session
  /-- The buffers' bytes (20_memory R84). -/
  mem : Memory
  /-- The model's own: what happens next, in order (20_memory R89, R90; log 1). -/
  events : List Event
  /-- The model's own: the answer to the last host access (log 9). -/
  bus : BusReply
  /-- The model's own: the number of resets so far, which numbers the free RAM contents (93 I1; log 3). -/
  epoch : Nat
deriving DecidableEq, Repr

/-- Why the machine stops. -/
inductive Fault where
  /-- Raised by a host access to a buffer or injection register that a pending command may be using
  (70_reset R352, 93 I3: "fault"). Safe: the spec gives such an access no successor state, so nothing is claimed of it. -/
  | busyHazard (write : Bool) (a : Offset)
deriving DecidableEq, Repr

/-- Why an instruction has no meaning. -/
inductive Refusal where
  /-- Raised by an arm of `exec` whose instruction has no meaning in the model yet. Safe: nothing is claimed of it.
  No arm of this model raises it. -/
  | notModelled (mnemonic : String)
deriving DecidableEq, Repr

/-- The addresses rise strictly: the canonical form of a memory. An unlisted offset reads as no written value, so no
listed entry can equal it, and equal memories are equal lists. -/
def Memory.wf : Memory → Bool
  | [] => true
  | [_] => true
  | c :: d :: rest => decide (c.1 < d.1) && Memory.wf (d :: rest)

/-- The settings registers at reset (70_reset R340, 10_state R35 to R40). -/
def Settings.reset : Settings where
  ctrl := 0
  fs := 0x03E80
  frame := 0xC8080B
  maxcomb := 0x00000100
  absRatio := 0x000A0000
  relRatio := 0x00008000

/-- L at reset: unspecified (70_reset R340). DESIGN CHOICE (log 2): Low and zeros; never read while READY = 0. -/
def Latched.reset : Latched where
  band := .low
  fs := 0
  n := 0
  k := 0
  maxstr := 0
  maxcomb := 0
  absRatio := 0
  relRatio := 0
  pre := false
  fcs := false

/-- A fresh session with a window of `fft` zeros and rings of `slots` empty records (40_control R134). -/
def Session.fresh (fft slots : Nat) : Session where
  hist := List.replicate 31 0
  wb := List.replicate fft 0
  ring := List.replicate slots []
  lring := List.replicate slots []
  dstate := .awaitingSync
  prog := 0
  payLen := 0
  payOvf := false
  chunkCnt := 0
  frameCnt := 0
  rejectCnt := 0
  candBin0 := 0
  candBin1 := 0
  candCnt := 0
  lagCnt := 0

/-- The machine right after reset (70_reset R340). The window and the rings have no length before the first INIT
(R353), so they are the empty lists, whose every entry reads 0 or () (log 13). -/
def State.reset : State where
  settings := Settings.reset
  latched := Latched.reset
  ready := false
  busy := false
  pend := 0
  errFlags := 0
  errCode := 0
  irqStatus := 0
  irqEn := 0
  resultCount := 0
  resultReject := false
  candIn := 0
  lagIn := 0
  h := List.replicate 32 0
  session := Session.fresh 0 0
  mem := []
  events := []
  bus := ⟨0, false⟩
  epoch := 0

end Sys2Proof.Machine
end

