-- ==== Sys2Proof/Machine/Ops.lean ====
section
/-! DEFINITION. The shared operations over memory and registers: byte access and byte order (20_memory R84 to R86), the
buffers by element (R84, R95), and raising an error, VPCORE's one exception mechanism (60_exceptions R300 to R305, R312, R313). -/

namespace Sys2Proof.Machine

/-! ### The byte memory -/

/-- The byte written at offset `a`, or none where nothing has been written since the last reset (93 I1). -/
def Memory.lookup : Memory → Nat → Option Byte
  | [], _ => none
  | (k, v) :: m, a => if k = a then some v else Memory.lookup m a

/-- Consecutive cells from offset `base` upward. -/
def cellsFrom : Nat → List Byte → Memory
  | _, [] => []
  | base, b :: bs => (base, b) :: cellsFrom (base + 1) bs

/-- The memory with `bs` stored at `base`, `base + 1`, …: the one write to memory. -/
def Memory.writeBytes (m : Memory) (base : Nat) (bs : List Byte) : Memory :=
  m.filter (fun c => decide (c.1 < base)) ++ cellsFrom base bs
    ++ m.filter (fun c => decide (base + bs.length ≤ c.1))

/-- The byte at offset `a`: what was last written there, else the free reset contents (70_reset R340, 93 I1; log 3). -/
def byteAt (s : State) (a : Nat) : Byte := (s.mem.lookup a).getD (Config.ramInit s.epoch a)

/-- `n` bytes from offset `base` upward. -/
def bytesAt (s : State) (base n : Nat) : List Byte := (List.range n).map (fun i => byteAt s (base + i))

/-- The state with `bs` stored at `base` upward. -/
def storeBytes (base : Nat) (bs : List Byte) (s : State) : State := { s with mem := s.mem.writeBytes base bs }

/-- The value of bytes in little-endian order: the first is bits [7:0] (R85). -/
def leValue : List Byte → Nat
  | [] => 0
  | b :: bs => b.toNat + 256 * leValue bs

/-- The low `n` bytes of a value in little-endian order (R85). -/
def leBytes : Nat → Nat → List Byte
  | 0, _ => []
  | n + 1, v => BitVec.ofNat 8 v :: leBytes n (v / 256)

/-! ### The buffers (20_memory R81, R84) -/

/-- The offset of CW[0]. -/
def cwBase : Nat := 0x0400
/-- The offset of PAY[0]. -/
def payBase : Nat := 0x0500
/-- The offset of IN[0]'s low byte. -/
def inBase : Nat := 0x4000
/-- The offset of OUT[0]'s low byte. -/
def outBase : Nat := 0x8000

/-- The signed 16-bit sample whose two bytes start at offset `a`: sext_16({byte(a+1), byte(a)}) (R85). -/
def sampleAt (s : State) (a : Nat) : Half := byteAt s (a + 1) ++ byteAt s a

/-- IN[n] (R84). -/
def inSample (s : State) (n : Nat) : Half := sampleAt s (inBase + 2 * n)
/-- IN[0..l−1]. -/
def inSamples (s : State) (l : Nat) : List Half := (List.range l).map (inSample s)
/-- OUT[n] (R84). -/
def outSample (s : State) (n : Nat) : Half := sampleAt s (outBase + 2 * n)

/-- The two bytes of a sample, low byte first (R85). -/
def sampleBytes (v : Half) : List Byte := [v.extractLsb' 0 8, v.extractLsb' 8 8]

/-- OUT[0], OUT[1], … receive `vs`. -/
def storeOut (vs : List Half) (s : State) : State := storeBytes outBase (vs.flatMap sampleBytes) s

/-- CW[i], CW[i+1], … receive `bs`. -/
def storeCw (i : Nat) (bs : List Byte) (s : State) : State := storeBytes (cwBase + i) bs s

/-- CW[0..n−1]. -/
def cwBytes (s : State) (n : Nat) : List Byte := bytesAt s cwBase n

/-- PAY[i] receives `b`. PAY has the indices 0..255 (R84); no rule reaches another one (45_decoder R260; log 14). -/
def storePay (i : Nat) (b : Byte) (s : State) : State := if i < 256 then storeBytes (payBase + i) [b] s else s

/-! ### Errors: raising one, and the host's acknowledgment -/

/-- The number of an error code (60_exceptions R300). -/
def ErrCode.code : ErrCode → Nat
  | .illegalOp => 1
  | .reservedField => 2
  | .busy => 3
  | .notReady => 4
  | .badArg => 5
  | .cfgInvalid => 6
  | .bus => 7

/-- report(c) (60_exceptions R305): the sticky flag, the first code, and IRQ_STATUS.ERR. -/
def report (c : ErrCode) (s : State) : State :=
  { s with
    errFlags := s.errFlags ||| (1#7 <<< (c.code - 1))
    errCode := if s.errFlags = 0 then BitVec.ofNat 8 c.code else s.errCode
    irqStatus := s.irqStatus ||| 0b1000 }

/-- `raise Err(c)` (00_scope R12): the command ends with the error report (60_exceptions R303, R312). No control is
transferred and no other state is saved, so the next state is that of the report. -/
def raise (c : ErrCode) (s : State) : Host.Outcome State Fault Refusal := .next (report c s)

/-- The host's acknowledgment of errors, a W1C write to ERR_FLAGS (10_state R43, 60_exceptions R313): the flags written
as 1 are cleared, and ERR_CODE too when none is left. -/
def ackErrors (v : Word) (s : State) : State :=
  let flags := s.errFlags &&& ~~~(v.setWidth 7)
  { s with errFlags := flags, errCode := if flags = 0 then 0 else s.errCode }

/-- The host's acknowledgment of interrupts, a W1C write to IRQ_STATUS (10_state R44, 60_exceptions R313). -/
def ackIrq (v : Word) (s : State) : State := { s with irqStatus := s.irqStatus &&& ~~~(v.setWidth 4) }

/-- The common end of a core step (60_exceptions R303): BUSY <- 0 and IRQ_STATUS.CMD_DONE <- 1. PEND keeps the word (log 15). -/
def complete (s : State) : State := { s with busy := false, irqStatus := s.irqStatus ||| 0b0001 }

end Sys2Proof.Machine
end

