-- ==== Sys2Proof/Machine/Flags.lean ====
section
/-! DEFINITION. The status flags (10_state R69): the STATUS, RESULT, CAND and CAND_CNT words, the decoder's two interrupt
bits, and the interrupt output. -/

namespace Sys2Proof.Machine

/-- A flag as a number. -/
def bit (b : Bool) : Nat := if b then 1 else 0

/-- The code of DSTATE (10_state R65). -/
def DState.code : DState → Nat
  | .awaitingSync => 0
  | .decoding => 1
  | .frameComplete => 2
  | .done => 3

/-- STATUS (10_state R42): BUSY [0], READY [1], DSTATE [3:2], PAY_OVF [4], ERR_CODE [15:8]. -/
def statusWord (s : State) : Word :=
  BitVec.ofNat 32 (bit s.busy + 2 * bit s.ready + 4 * s.session.dstate.code + 16 * bit s.session.payOvf
    + 256 * s.errCode.toNat)

/-- RESULT (10_state R46): COUNT [7:0], REJECT [8]. -/
def resultWord (s : State) : Word := BitVec.ofNat 32 (s.resultCount.toNat + 256 * bit s.resultReject)

/-- CAND (10_state R47): BIN0 [15:0], BIN1 [31:16]. -/
def candWord (s : State) : Word := s.session.candBin1 ++ s.session.candBin0

/-- CAND_CNT (10_state R48): CNT [1:0], LCNT [3:2]. -/
def candCntWord (s : State) : Word := BitVec.ofNat 32 (s.session.candCnt.toNat + 4 * s.session.lagCnt.toNat)

/-- IRQ_STATUS.FRAME_OK <- 1 (60_exceptions R311). -/
def setFrameOk (s : State) : State := { s with irqStatus := s.irqStatus ||| 0b0010 }

/-- IRQ_STATUS.DONE <- 1 (60_exceptions R311). -/
def setDoneIrq (s : State) : State := { s with irqStatus := s.irqStatus ||| 0b0100 }

/-- The interrupt output IRQ (60_exceptions R310), a level: it is a function of the state. -/
def irqLevel (s : State) : Bool := decide (s.irqStatus &&& s.irqEn ≠ 0)

end Sys2Proof.Machine
end

