-- ==== Sys2Proof/Machine/Params.lean ====
section
/-! DEFINITION. The configuration record in use (00_scope R6) and the quantities derived from it: sample rates, chunk and
burst lengths, bins of frequencies (R17), and the constraints a configuration must meet (R6, 93 I6). -/

namespace Sys2Proof.Machine

/-- OVL, the overlap factor (R6). -/
def ovl : Nat := 8
/-- FIR_TAPS (R6). -/
def firTaps : Nat := 32
/-- NSYM, symbols per band (R6). -/
def nsym : Nat := 16
/-- IN_CAP, samples (R6). -/
def inCap : Nat := 8192
/-- OUT_CAP, samples (R6). -/
def outCap : Nat := 8192

/-- RATE[b] in Hz (R6, decision D3). -/
def rate : Band → Nat
  | .low => 16000
  | .mid => 32000
  | .high => 44100

/-- The constants of band b (R6). -/
def bandCfg (c : Cfg) : Band → BandCfg
  | .low => c.low
  | .mid => c.mid
  | .high => c.high

/-- FFT_SIZE[b] (R6). -/
def fftSize (c : Cfg) (b : Band) : Nat := (bandCfg c b).fftSize
/-- GUARD[b] (R6). -/
def guardBins (c : Cfg) (b : Band) : Nat := (bandCfg c b).guard
/-- CHUNK[b] = FFT_SIZE[b] / 8 (R6). -/
def chunkLen (c : Cfg) (b : Band) : Nat := fftSize c b / 8
/-- BURST[b] = FFT_SIZE[b] (R6, 44_synth R230). -/
def burstLen (c : Cfg) (b : Band) : Nat := fftSize c b
/-- FREQ[b][s] (R6). -/
def freqOf (c : Cfg) (b : Band) (s : Nat) : Nat := (bandCfg c b).freq.getD s 0

/-- f × fft / rate rounded to the nearest integer, a tie rounded up (R17). -/
def binOfFreq (fft rateHz f : Nat) : Nat := (2 * f * fft + rateHz) / (2 * rateHz)

/-- binOf_b(f) (R17). -/
def binOf (c : Cfg) (b : Band) (f : Nat) : Nat := binOfFreq (fftSize c b) (rate b) f

/-- eb(s), the expected bin of symbol s (45_decoder, introduction). -/
def symbolBin (c : Cfg) (b : Band) (s : Nat) : Nat := binOf c b (freqOf c b s)

/-- The constraints of R6 on one band: FFT_SIZE a power of two in 64..65536 with CHUNK and BURST within the buffers;
16 rising tones below RATE/2 whose bins are at least GUARD apart; GUARD at least 1; the cutoff within (0, RATE/2). -/
def bandValid (b : Band) (p : BandCfg) : Bool :=
  [64, 128, 256, 512, 1024, 2048, 4096, 8192, 16384, 32768, 65536].contains p.fftSize
    && decide (p.fftSize / 8 ≤ inCap) && decide (p.fftSize ≤ outCap)
    && decide (p.freq.length = nsym)
    && p.freq.all (fun f => decide (0 < f) && decide (2 * f < rate b))
    && (List.range (nsym - 1)).all (fun s =>
        decide (p.freq.getD s 0 < p.freq.getD (s + 1) 0)
          && decide (binOfFreq p.fftSize (rate b) (p.freq.getD s 0) + p.guard
              ≤ binOfFreq p.fftSize (rate b) (p.freq.getD (s + 1) 0)))
    && decide (1 ≤ p.guard) && decide (0 < p.fc) && decide (2 * p.fc < rate b)

/-- The constraints of R6 on a configuration record. -/
def cfgValid (c : Cfg) : Bool :=
  bandValid .low c.low && bandValid .mid c.mid && bandValid .high c.high
    && decide (1 ≤ c.synAmp) && decide (c.synAmp ≤ 32767)

/-- The example instance EX (95_test_vectors section 0). EX leaves bands 1 and 2 open; the values here are DESIGN
CHOICE (log 4): the same bins at the other two rates. -/
def exCfg : Cfg where
  low := ⟨1024, (List.range 16).map (fun s => 2000 + 125 * s), 4, 1500, .highpass, 1500, 1750⟩
  mid := ⟨1024, (List.range 16).map (fun s => 4000 + 250 * s), 4, 3000, .highpass, 3000, 3500⟩
  high := ⟨1024, (List.range 16).map (fun s => 6000 + 400 * s), 4, 4500, .highpass, 4500, 5000⟩
  sync0 := 0xA5
  sync1 := 0xA5
  synAmp := 16384

/-- The configuration record of this VPCORE: whatever valid record the implementation chose. A record that breaks a
constraint of R6 "is not a VPCORE instance" (R6, 93 I6), so it is not taken (log 4). -/
def cfg : Cfg := if cfgValid Config.chosenCfg then Config.chosenCfg else exCfg

/-- What the rules take as fixed: the configuration record and the numeric type. Those of this VPCORE are `params`
(Machine/Conformance.lean). -/
structure Params where
  cfg : Cfg
  num : Numerics

/-- The window offset of a host address (20_memory R80): offset 0 is at VP_BASE. -/
def windowOffset (hostAddress : Nat) : Option Offset :=
  if Config.vpBase ≤ hostAddress ∧ hostAddress < Config.vpBase + 65536 then
    some (BitVec.ofNat 16 (hostAddress - Config.vpBase))
  else none

end Sys2Proof.Machine
end

