-- ==== Sys2Proof/Machine/Operands.lean ====
section
/-! DEFINITION. What the commands take their operands from: the settings fields (10_state R35 to R40), the latched record
and its derived quantities (00_scope R8, R18), the injected records (10_state R49, R50), and the gating and argument
checks (30_encoding R110, 60_exceptions R301, R306). -/

namespace Sys2Proof.Machine

/-! ### Settings fields -/

/-- The band a CTRL.BAND value names; 3 names none (10_state R35). -/
def bandOfBits (b : BitVec 2) : Option Band :=
  match b.toNat with
  | 0 => some .low
  | 1 => some .mid
  | 2 => some .high
  | _ => none

/-- CTRL.BAND (10_state R35). -/
def Settings.band (t : Settings) : BitVec 2 := t.ctrl.extractLsb' 0 2
/-- CTRL.PREAMBLE_EN (10_state R35). -/
def Settings.preambleEn (t : Settings) : Bool := t.ctrl.getLsbD 2
/-- CTRL.FIR_CLR_SYNC (10_state R35). -/
def Settings.firClrSync (t : Settings) : Bool := t.ctrl.getLsbD 3
/-- FRAME.N (10_state R37). -/
def Settings.n (t : Settings) : Byte := t.frame.extractLsb' 0 8
/-- FRAME.K (10_state R37). -/
def Settings.k (t : Settings) : Byte := t.frame.extractLsb' 8 8
/-- FRAME.MAXSTR (10_state R37). -/
def Settings.maxstr (t : Settings) : Byte := t.frame.extractLsb' 16 8

/-! ### The latched record -/

/-- A UQ16.16 number: the register value / 65536 (10_state R39). -/
def uq16 (w : Word) : Rat := (w.toNat : Rat) / 65536

/-- L.ABS (40_control R133). -/
def Latched.abs (l : Latched) : Rat := uq16 l.absRatio
/-- L.REL (40_control R133). -/
def Latched.rel (l : Latched) : Rat := uq16 l.relRatio
/-- D = N + 1, the RS data bytes of a frame (00_scope R8). -/
def Latched.dataBytes (l : Latched) : Nat := l.n.toNat + 1
/-- FB = N + 1 + K, the bytes of a frame (00_scope R8). -/
def Latched.frameBytes (l : Latched) : Nat := l.n.toNat + 1 + l.k.toNat
/-- F = 2 × FB, the symbol slots of a frame (00_scope R8). -/
def Latched.frameSlots (l : Latched) : Nat := 2 * l.frameBytes
/-- OVL × F, the records of a ring (10_state R64). -/
def Latched.ringLen (l : Latched) : Nat := ovl * l.frameSlots

/-! ### Injected records -/

/-- The first `cnt` elements of (BIN0, BIN1) of an injection register (45_decoder R267). -/
def injectedRecord (reg : Word) (cnt : Nat) : Record :=
  [(reg.extractLsb' 0 16).toNat, (reg.extractLsb' 16 16).toNat].take cnt

/-! ### Checks -/

/-- FIR_RUN's argument is illegal: L = 0 or L > IN_CAP (30_encoding R110). -/
def firArgBad (l : Nat) : Bool := decide (l = 0) || decide (inCap < l)

/-- CAND_PUSH's arguments are illegal: CNT = 3 or LCNT = 3, the values of a 2-bit field above 2 (30_encoding R110; log 12). -/
def pushArgBad (cnt lcnt : Nat) : Bool := decide (2 < cnt) || decide (2 < lcnt)

/-- RS_ENC's or RS_DEC's arguments are illegal: D = 0 or D + K > 255 (30_encoding R110). -/
def rsArgBad (d k : Nat) : Bool := decide (d = 0) || decide (255 < d + k)

/-- The two checks a command's rule makes before its effect, in the order of 60_exceptions R306: NOT_READY when it needs
READY and READY = 0, then BAD_ARG; else its effect `go`. -/
def gated (needsReady argBad : Bool) (s : State) (go : State) : Host.Outcome State Fault Refusal :=
  if needsReady && !s.ready then raise .notReady s
  else if argBad then raise .badArg s
  else .next go

end Sys2Proof.Machine
end

