-- ==== Sys2Proof/Machine/SpectralUnit.lean ====
section
/-! DEFINITION. The spectral engine (43_spectral sections 1 to 3): regions, the window push, the power spectrum and the
selection of candidates. -/

namespace Sys2Proof.Machine

/-- The distance |a − b| of two bins. -/
def binDist (a b : Nat) : Nat := (a - b) + (b - a)

/-- The payload region [loP, hiP] (R200). -/
def payloadRegion (c : Cfg) (b : Band) : Nat × Nat :=
  (symbolBin c b 0 - guardBins c b, min (fftSize c b / 2) (symbolBin c b 15 + guardBins c b))

/-- The bins of the two sync tones (R201, 45_decoder R262). -/
def stoneBins (c : Cfg) (b : Band) : Nat × Nat := (binOf c b (bandCfg c b).stone0, binOf c b (bandCfg c b).stone1)

/-- The lag region [loL, hiL] (R201). -/
def lagRegion (c : Cfg) (b : Band) : Nat × Nat :=
  let t := stoneBins c b
  (min t.1 t.2 - guardBins c b, min (fftSize c b / 2) (max t.1 t.2 + guardBins c b))

/-- push_window(v) (R202): shift left by the chunk, append it. -/
def pushWindow (wb v : List Rat) : List Rat := (wb ++ v).drop v.length

/-- The bins of a region with their powers, lowest bin first. -/
def regionPowers (power : Nat → Rat) (lo hi : Nat) : List (Nat × Rat) :=
  (List.range (hi + 1 - lo)).map fun i => (lo + i, power (lo + i))

/-- R204's order: P descending, equal P by bin ascending. -/
def stronger (a b : Nat × Rat) : Bool := decide (b.2 < a.2) || (decide (a.2 = b.2) && decide (a.1 < b.1))

/-- Insertion into a list in R204's order. -/
def insertBin (a : Nat × Rat) : List (Nat × Rat) → List (Nat × Rat)
  | [] => [a]
  | b :: bs => if stronger a b then a :: b :: bs else b :: insertBin a bs

/-- order[0], order[1], … of R204. -/
def sortBins : List (Nat × Rat) → List (Nat × Rat)
  | [] => []
  | a :: as => insertBin a (sortBins as)

/-- Pmin, the least power of the bins (R205). -/
def minPower : List (Nat × Rat) → Rat
  | [] => 0
  | [a] => a.2
  | a :: b :: rest => min a.2 (minPower (b :: rest))

/-- select(lo, hi) (R205 to R207) from given powers. A region without bins has no candidate (log 8). -/
def selectRecord (power : Nat → Rat) (lo hi guard : Nat) (abs rel : Rat) : Record :=
  let bins := regionPowers power lo hi
  let floor := abs * minPower bins
  match sortBins bins with
  | [] => []
  | (k0, p0) :: rest =>
    if floor < p0 then
      match rest.find? (fun q => decide (guard ≤ binDist q.1 k0)) with
      | none => [k0]
      | some (k1, p1) => if floor < p1 ∧ rel * p0 < p1 then [k0, k1] else [k0]
    else []

/-- select over one region of the latched band, from the window contents (R203, R207, R209). -/
def selectRegion (p : Params) (l : Latched) (wb : List Rat) (region : Nat × Nat) : Record :=
  selectRecord (powerValue p.num (fftSize p.cfg l.band) wb) region.1 region.2 (guardBins p.cfg l.band) l.abs l.rel

/-- recP (R207). -/
def payloadRecord (p : Params) (l : Latched) (wb : List Rat) : Record :=
  selectRegion p l wb (payloadRegion p.cfg l.band)

/-- recL: () when L.PRE = 0 (R207). -/
def lagRecord (p : Params) (l : Latched) (wb : List Rat) : Record :=
  if l.pre then selectRegion p l wb (lagRegion p.cfg l.band) else []

end Sys2Proof.Machine
end

