-- ==== Sys2Proof/Machine/FrameDecoder.lean ====
section
/-! DEFINITION. The frame decoder (45_decoder sections 1 to 4) and the slot step (43_spectral R210). -/

namespace Sys2Proof.Machine

/-! ### Sync (R253, R254, R262) -/

/-- The four sync nibbles s0..s3 (45_decoder, introduction; 30_encoding R112). -/
def syncNibbles (c : Cfg) : List Nat :=
  [c.sync0.toNat % 16, c.sync0.toNat / 16, c.sync1.toNat % 16, c.sync1.toNat / 16]

/-- A record contains a bin x with |x − e| < G (R253, R262). -/
def hasBinNear (guard e : Nat) (r : Record) : Bool := r.any (fun x => decide (binDist x e < guard))

/-- The record of the newest slot (`back` = 0) or of `back` symbol periods before it, in a ring of `len` records. -/
def periodsAgo (ring : List Record) (len back : Nat) : Record := ring.getD (len - 1 - 8 * back) []

/-- syncMatch() (R253): the record 3 − j symbol periods ago has a bin near the expected bin of s_j. -/
def syncMatch (c : Cfg) (l : Latched) (ring : List Record) : Bool :=
  (List.range 4).all fun j =>
    hasBinNear (guardBins c l.band) (symbolBin c l.band ((syncNibbles c).getD j 0)) (periodsAgo ring l.ringLen (3 - j))

/-- lagMatch() (R262): the two sync tones one symbol period apart. -/
def lagMatch (c : Cfg) (l : Latched) (lring : List Record) : Bool :=
  hasBinNear (guardBins c l.band) (stoneBins c l.band).1 (periodsAgo lring l.ringLen 1)
    && hasBinNear (guardBins c l.band) (stoneBins c l.band).2 (periodsAgo lring l.ringLen 0)

/-- acquire() (R254, R264). -/
def acquire (s : State) : State :=
  { s with session := { s.session with
      dstate := .decoding
      prog := 0
      hist := if s.latched.fcs then List.replicate 31 0 else s.session.hist } }

/-! ### The frame attempt (R256 to R261) -/

/-- W[0..F−1]: the generation of the newest record (R251, R256). -/
def frameWindow (l : Latched) (ring : List Record) : List Record :=
  (List.range l.frameSlots).map fun j => ring.getD (8 * j + 7) []

/-- PROD (R256). -/
def candidateProduct (w : List Record) : Nat := (w.map List.length).prod

/-- LST (R256): the full product within the bound, else each slot's best candidate. -/
def candidateLists (maxcomb : Nat) (w : List Record) : List Record :=
  if candidateProduct w ≤ maxcomb then w else w.map (fun r => r.take 1)

/-- The combinations in R257's order: slot 0 most significant, candidate 0 first. -/
def combinations : List Record → List (List Nat)
  | [] => [[]]
  | r :: rest => r.flatMap fun x => (combinations rest).map (fun c => x :: c)

/-- classify(x) (R259): the symbol whose frequency is nearest to the bin's, the smaller one on a tie. -/
def classify (c : Cfg) (b : Band) (fs x : Nat) : Nat :=
  (List.range nsym).foldl
    (fun best s =>
      if binDist (x * fs) (freqOf c b s * fftSize c b) < binDist (x * fs) (freqOf c b best * fftSize c b) then s else best) 0

/-- cw[i] = nib[2i] | nib[2i+1] << 4 (R257, 30_encoding R112). -/
def nibblesToBytes : List Nat → List Byte
  | lo :: hi :: rest => (BitVec.ofNat 8 lo ||| (BitVec.ofNat 8 hi <<< 4)) :: nibblesToBytes rest
  | _ => []

/-- try_frame(cw) (R258): the decoded frame, when RS accepts it and its sync bytes are right. -/
def tryFrame (c : Cfg) (l : Latched) (cw : List Byte) : Option (List Byte) :=
  match rsDecode cw l.dataBytes l.k.toNat with
  | none => none
  | some (_, fr) => if fr.getD 0 0 = c.sync0 ∧ fr.getD 1 0 = c.sync1 then some fr else none

/-- One combination of enumerate (R257): classify, pack, try. -/
def tryCombination (c : Cfg) (l : Latched) (bins : List Nat) : Option (List Byte) :=
  tryFrame c l (nibblesToBytes (bins.map (classify c l.band l.fs.toNat)))

/-- The payload loop of accept(c) (R260). -/
def appendPayload : List Byte → State → State
  | [], s => { s with session := { s.session with dstate := .frameComplete } }
  | b :: bs, s =>
    if b = 0 then
      let t := storePay s.session.payLen.toNat 0 s
      setDoneIrq { t with session := { t.session with payLen := s.session.payLen + 1, dstate := .done } }
    else if s.session.payLen.toNat < s.latched.maxstr.toNat - 1 then
      let t := storePay s.session.payLen.toNat b s
      appendPayload bs { t with session := { t.session with payLen := s.session.payLen + 1 } }
    else appendPayload bs { s with session := { s.session with payOvf := true } }

/-- accept(c) (R260): count, FRAME_OK, and the payload bytes c[2..N]. -/
def accept (fr : List Byte) (s : State) : State :=
  appendPayload ((fr.drop 2).take (s.latched.n.toNat - 1))
    (setFrameOk { s with session := { s.session with frameCnt := s.session.frameCnt + 1 } })

/-- reject() (R261). -/
def reject (s : State) : State :=
  { s with session := { s.session with rejectCnt := s.session.rejectCnt + 1, dstate := .awaitingSync } }

/-- The first combination that gives a frame (R257), none if PROD = 0 or no combination does (R256). -/
def attemptResult (c : Cfg) (l : Latched) (ring : List Record) : Option (List Byte) :=
  let w := frameWindow l ring
  if candidateProduct w = 0 then none
  else (combinations (candidateLists l.maxcomb.toNat w)).findSome? (tryCombination c l)

/-- frame_attempt() (R256). -/
def frameAttempt (c : Cfg) (s : State) : State :=
  let s0 := { s with session := { s.session with prog := 0 } }
  match attemptResult c s.latched s.session.ring with
  | none => reject s0
  | some fr => accept fr s0

/-! ### The decoder step and the slot step -/

/-- The sync test of AwaitingSync (R252). -/
def seekSync (c : Cfg) (s : State) : State :=
  if syncMatch c s.latched s.session.ring || (s.latched.pre && lagMatch c s.latched s.session.lring) then acquire s else s

/-- decoder_step() (R252, R263, R265). -/
def decoderStep (c : Cfg) (s : State) : State :=
  match s.session.dstate with
  | .done => s
  | .frameComplete => seekSync c { s with session := { s.session with dstate := .awaitingSync } }
  | .awaitingSync => seekSync c s
  | .decoding =>
    if s.latched.pre && lagMatch c s.latched s.session.lring then acquire s
    else
      let s1 := { s with session := { s.session with prog := s.session.prog + 1 } }
      if s1.session.prog = 8 * (s.latched.frameSlots - 4) then frameAttempt c s1 else s1

/-- The oldest record dropped, the new one appended (43_spectral R210). -/
def shiftRing (ring : List Record) (r : Record) : List Record := (ring ++ [r]).drop 1

/-- The rings, CHUNK_CNT, CAND and CAND_CNT of a slot step (43_spectral R210). -/
def pushSlot (recP recL : Record) (s : State) : State :=
  { s with session := { s.session with
      ring := shiftRing s.session.ring recP
      lring := shiftRing s.session.lring recL
      chunkCnt := s.session.chunkCnt + 1
      candBin0 := if 1 ≤ recP.length then BitVec.ofNat 16 (recP.getD 0 0) else 0
      candBin1 := if recP.length = 2 then BitVec.ofNat 16 (recP.getD 1 0) else 0
      candCnt := BitVec.ofNat 2 recP.length
      lagCnt := BitVec.ofNat 2 recL.length } }

/-- slot_step(recP, recL) (43_spectral R210). -/
def slotStep (c : Cfg) (recP recL : Record) (s : State) : State := decoderStep c (pushSlot recP recL s)

/-- The spectral engine and the slot step on one chunk of values (R202, R207, R210): ANALYZE and CHUNK share it. -/
def analyzeValues (p : Params) (v : List Rat) (s : State) : State :=
  let wb := pushWindow s.session.wb v
  slotStep p.cfg (payloadRecord p s.latched wb) (lagRecord p s.latched wb) { s with session := { s.session with wb := wb } }

end Sys2Proof.Machine
end

