-- ==== Sys2Proof/Machine/ToneUnit.lean ====
section
/-! DEFINITION. The tone synthesizer (44_synth R230, R231). -/

namespace Sys2Proof.Machine

/-- sample(n) of symbol `sym` (R231): sat16(rne(v(n))). -/
def toneSample (p : Params) (l : Latched) (sym n : Nat) : Half :=
  BitVec.ofInt 16 (sat16 (rne (toneValue p.num p.cfg l.band (freqOf p.cfg l.band sym) p.cfg.synAmp l.fs.toNat
    (burstLen p.cfg l.band) sym n)))

/-- The burst of symbol `sym` (R230, R231). -/
def toneBurst (p : Params) (l : Latched) (sym : Nat) : List Half :=
  (List.range (burstLen p.cfg l.band)).map (toneSample p l sym)

end Sys2Proof.Machine
end

