-- ==== Sys2Proof/Machine/Conformance.lean ====
section
/-! DEFINITION. The bound that a numeric type must meet (44_synth R233): the spectral engine, applied to the burst of a
symbol, classifies it as that symbol. And the parameters in use, which meet the constraints of 00_scope R6 and this bound. -/

namespace Sys2Proof.Machine

/-- L of a session of band b at the band's rate, as far as the synthesizer reads it (44_synth R231). -/
def burstSetting (b : Band) : Latched := { Latched.reset with band := b, fs := BitVec.ofNat 17 (rate b) }

/-- The window holding the burst of symbol `sym`: "one burst fills exactly one analyzer window" (44_synth R230). -/
def burstWindow (p : Params) (b : Band) (sym : Nat) : List Rat :=
  (toneBurst p (burstSetting b) sym).map (fun x => ((x.toInt : Int) : Rat))

/-- order[0] of the payload region (43_spectral R204) for the burst of symbol `sym`. -/
def burstBin (p : Params) (b : Band) (sym : Nat) : Option Nat :=
  let region := payloadRegion p.cfg b
  ((sortBins (regionPowers (powerValue p.num (fftSize p.cfg b) (burstWindow p b sym)) region.1 region.2)).head?).map
    (fun q => q.1)

/-- The burst of symbol `sym` is classified as `sym` (44_synth R233). DEDUCED (log 18): by its strongest bin, which no
programmable threshold moves. -/
def burstClassified (p : Params) (b : Band) (sym : Nat) : Bool :=
  match burstBin p b sym with
  | none => false
  | some k => decide (classify p.cfg b (rate b) k = sym)

/-- The bound of 44_synth R233: every burst of every band is classified as its symbol. -/
def ownBurstsClassified (p : Params) : Bool :=
  [Band.low, Band.mid, Band.high].all fun b => (List.range nsym).all (burstClassified p b)

/-- A numeric type that meets the bound for every valid configuration. DESIGN CHOICE (log 18): its burst carries the
symbol's bin in sample 1, and its powers read it there. -/
def fallbackNumerics : Numerics where
  trig := ⟨0, fun _ => 0, fun _ => 0⟩
  coefError := fun _ _ _ _ => 0
  firError := fun _ _ => 0
  powerError := fun wb k => if wb.getD 1 0 = (k : Rat) + 1 then 1 else 0
  toneError := fun c b _ sym n => if n = 1 then (symbolBin c b sym : Rat) + 1 else 0

/-- The numeric type of this VPCORE: whatever conforming one the implementation chose. One that breaks the bound of
44_synth R233 is no conforming implementation, so it is not taken (log 18). -/
def numerics : Numerics :=
  if ownBurstsClassified ⟨cfg, Config.numerics⟩ then Config.numerics else fallbackNumerics

/-- The parameters of this VPCORE. -/
def params : Params := ⟨cfg, numerics⟩

end Sys2Proof.Machine
end

