-- ==== Sys2Proof/Machine/Control.lean ====
section
/-! DEFINITION. The control commands NOP, INIT and CLEAR (40_control). -/

namespace Sys2Proof.Machine

/-- clear_session() (R134): the session fresh for the latched sizes, and every PAY byte 0. -/
def clearSession (p : Params) (s : State) : State :=
  storeBytes payBase (List.replicate 256 0)
    { s with session := Session.fresh (fftSize p.cfg s.latched.band) s.latched.ringLen }

/-- Conditions 2 to 6 of validate() for band b (R132). -/
def settingsOk (b : Band) (t : Settings) : Bool :=
  decide (t.fs.toNat = rate b) && decide (2 ≤ t.n.toNat) && decide (t.n.toNat + t.k.toNat ≤ 253)
    && decide (2 ≤ t.maxstr.toNat) && decide (t.maxcomb ≠ 0)

/-- latch() for band b (R133). -/
def latch (b : Band) (t : Settings) : Latched where
  band := b
  fs := t.fs
  n := t.n
  k := t.k
  maxstr := t.maxstr
  maxcomb := t.maxcomb
  absRatio := t.absRatio
  relRatio := t.relRatio
  pre := t.preambleEn
  fcs := t.firClrSync

/-- H[0..31] for a latched record (42_fir R181). -/
def coefficients (p : Params) (l : Latched) : List Rat :=
  (List.range firTaps).map fun n =>
    coefValue p.num (bandCfg p.cfg l.band).ftype (bandCfg p.cfg l.band).fc l.fs.toNat n

/-- INIT after a successful validation (R131): latch, coefficients, clear_session, READY <- 1. -/
def initSession (p : Params) (b : Band) (s : State) : State :=
  let l := latch b s.settings
  { clearSession p { s with latched := l, h := coefficients p l } with ready := true }

/-- INIT with invalid settings (R132): READY <- 0, then CFG_INVALID. -/
def initFailed (s : State) : Host.Outcome State Fault Refusal := raise .cfgInvalid { s with ready := false }

/-- NOP (R130). -/
def execNop (s : State) : Host.Outcome State Fault Refusal := .next s

/-- INIT over given parameters (R131, R132). -/
def initWith (p : Params) (s : State) : Host.Outcome State Fault Refusal :=
  match bandOfBits s.settings.band with
  | none => initFailed s
  | some b => if settingsOk b s.settings then .next (initSession p b s) else initFailed s

/-- INIT (R131). -/
def execInit (s : State) : Host.Outcome State Fault Refusal := initWith params s

/-- CLEAR (R135). -/
def execClear (s : State) : Host.Outcome State Fault Refusal := gated true false s (clearSession params s)

end Sys2Proof.Machine
end

