-- ==== Sys2Proof/Machine/Fir.lean ====
section
/-! DEFINITION. The FIR filter bank and FIR_RUN (42_fir). -/

namespace Sys2Proof.Machine

/-- fir_step(x) (R183): y from the taps x, HIST[1], …, HIST[31], and the history moved by one. -/
def firStep (num : Numerics) (h : List Rat) (hist : List Half) (x : Half) : Rat × List Half :=
  (firValue num h ((x :: hist).map BitVec.toInt), (x :: hist).dropLast)

/-- fir_step over a stream (R183, R184): the outputs, and the history after it. -/
def firStream (num : Numerics) (h : List Rat) : List Half → List Half → List Rat × List Half
  | hist, [] => ([], hist)
  | hist, x :: xs =>
    let here := firStep num h hist x
    let rest := firStream num h here.2 xs
    (here.1 :: rest.1, rest.2)

/-- sat16(rne(y)) as a 16-bit sample (R186, R188). -/
def roundSample (y : Rat) : Half := BitVec.ofInt 16 (sat16 (rne y))

/-- FIR_RUN's effect (R186): OUT[0..L−1] and HIST. -/
def firRunEffect (p : Params) (l : Nat) (s : State) : State :=
  let r := firStream p.num s.h s.session.hist (inSamples s l)
  storeOut (r.1.map roundSample) { s with session := { s.session with hist := r.2 } }

/-- FIR_RUN L (R186). -/
def execFirRun (l : Nat) (s : State) : Host.Outcome State Fault Refusal :=
  gated true (firArgBad l) s (firRunEffect params l s)

end Sys2Proof.Machine
end

