-- ==== Sys2Proof/Machine/Decoder.lean ====
section
/-! DEFINITION. The commands CHUNK and CAND_PUSH (45_decoder R266, R267). -/

namespace Sys2Proof.Machine

/-- CHUNK's effect over given parameters (R266): one chunk through the FIR, unrounded, then the slot step. -/
def chunkEffect (p : Params) (s : State) : State :=
  let r := firStream p.num s.h s.session.hist (inSamples s (chunkLen p.cfg s.latched.band))
  analyzeValues p r.1 { s with session := { s.session with hist := r.2 } }

/-- CHUNK (R266). -/
def execChunk (s : State) : Host.Outcome State Fault Refusal := gated true false s (chunkEffect params s)

/-- CAND_PUSH's effect over a given configuration (R267). -/
def candPushEffect (c : Cfg) (cnt lcnt : Nat) (s : State) : State :=
  slotStep c (injectedRecord s.candIn cnt) (injectedRecord s.lagIn lcnt) s

/-- CAND_PUSH CNT, LCNT (R267). -/
def execCandPush (cnt lcnt : Nat) (s : State) : Host.Outcome State Fault Refusal :=
  gated true (pushArgBad cnt lcnt) s (candPushEffect params.cfg cnt lcnt s)

end Sys2Proof.Machine
end

