-- ==== Sys2Proof/Machine/ReedSolomon.lean ====
section
/-! DEFINITION. The commands RS_ENC and RS_DEC (41_reed_solomon R158, R162). -/

namespace Sys2Proof.Machine

/-- RESULT <- COUNT, REJECT (10_state R46). -/
def setResult (count : Nat) (reject : Bool) (s : State) : State :=
  { s with resultCount := BitVec.ofNat 8 count, resultReject := reject }

/-- RS_ENC's effect (R158): CW[D..D+K−1] receive the parity of CW[0..D−1]; RESULT <- 0. -/
def rsEncEffect (d k : Nat) (s : State) : State := setResult 0 false (storeCw d (rsEncode (cwBytes s d) k) s)

/-- RS_DEC's effect (R162): the corrected buffer and its count, or REJECT with CW unchanged. -/
def rsDecEffect (d k : Nat) (s : State) : State :=
  match rsDecode (cwBytes s (d + k)) d k with
  | some (count, c) => setResult count false (storeCw 0 c s)
  | none => setResult 0 true s

/-- RS_ENC D, K (R158). It needs no READY. -/
def execRsEnc (d k : Nat) (s : State) : Host.Outcome State Fault Refusal :=
  gated false (rsArgBad d k) s (rsEncEffect d k s)

/-- RS_DEC D, K (R162). It needs no READY. -/
def execRsDec (d k : Nat) (s : State) : Host.Outcome State Fault Refusal :=
  gated false (rsArgBad d k) s (rsDecEffect d k s)

end Sys2Proof.Machine
end

