-- ==== Sys2Proof/Machine/Spectral.lean ====
section
/-! DEFINITION. The command ANALYZE (43_spectral R211). -/

namespace Sys2Proof.Machine

/-- ANALYZE's effect over given parameters (R211): the raw IN samples as NUM, then the slot step. -/
def analyzeEffect (p : Params) (s : State) : State :=
  analyzeValues p ((inSamples s (chunkLen p.cfg s.latched.band)).map (fun x => ((x.toInt : Int) : Rat))) s

/-- ANALYZE (R211). -/
def execAnalyze (s : State) : Host.Outcome State Fault Refusal := gated true false s (analyzeEffect params s)

end Sys2Proof.Machine
end

