-- ==== Sys2Proof/Machine/Synth.lean ====
section
/-! DEFINITION. The command SYNTH (44_synth R234). -/

namespace Sys2Proof.Machine

/-- SYNTH SYM (R234). -/
def execSynth (sym : Nat) (s : State) : Host.Outcome State Fault Refusal :=
  gated true false s (storeOut (toneBurst params s.latched sym) s)

end Sys2Proof.Machine
end

