-- ==== Sys2Proof/Machine/Dispatch.lean ====
section
/-! DEFINITION. Every command's meaning, one arm per constructor of Instr (60_exceptions R303: "execute the command's rule").
The common end of a core step (BUSY <- 0, CMD_DONE <- 1) is not part of it; Machine/Cycle.lean adds it. -/

namespace Sys2Proof.Machine

def exec (i : Instr) (s : State) : Host.Outcome State Fault Refusal :=
  match i with
  | .nop => Sys2Proof.Machine.execNop s
  | .init => Sys2Proof.Machine.execInit s
  | .clear => Sys2Proof.Machine.execClear s
  | .firRun l => Sys2Proof.Machine.execFirRun l s
  | .analyze => Sys2Proof.Machine.execAnalyze s
  | .chunk => Sys2Proof.Machine.execChunk s
  | .candPush cnt lcnt => Sys2Proof.Machine.execCandPush cnt lcnt s
  | .rsEnc d k => Sys2Proof.Machine.execRsEnc d k s
  | .rsDec d k => Sys2Proof.Machine.execRsDec d k s
  | .synth sym => Sys2Proof.Machine.execSynth sym s

end Sys2Proof.Machine
end

