-- ==== Sys2Proof/Machine/Host.lean ====
section
/-! DEFINITION. The host's accesses (00_scope R11, 20_memory R80 to R87, 60_exceptions R302, 70_reset R352): the address
map, the registers, and what a read answers and a write does. -/

namespace Sys2Proof.Machine

/-- The regions of the VPCORE window (20_memory R81). -/
inductive Region where
  | registers
  | cwBuf
  | payload
  | inBuf
  | outBuf
  | reserved
deriving DecidableEq, Repr

/-- The 22 registers (10_state R34 to R55). -/
inductive Reg where
  | id | ctrl | fs | frame | maxcomb | absRatio | relRatio | cmd | status | errFlags | irqStatus | irqEn | result
  | cand | candCnt | candIn | lagIn | chunkCnt | frameCnt | rejectCnt | payLen | decProg
deriving DecidableEq, Repr

/-- The number of bytes of an access (R82). -/
def AccessSize.bytes : AccessSize → Nat
  | .one => 1
  | .two => 2
  | .four => 4

/-- The region of an offset (20_memory R81). -/
def regionOf (a : Nat) : Region :=
  if a ≤ 0x0057 then .registers
  else if a ≤ 0x03FF then .reserved
  else if a ≤ 0x04FF then .cwBuf
  else if a ≤ 0x05FF then .payload
  else if a ≤ 0x3FFF then .reserved
  else if a ≤ 0x7FFF then .inBuf
  else if a ≤ 0xBFFF then .outBuf
  else .reserved

/-- Whether an access is legal (20_memory R82, R83): aligned, outside the reserved ranges, and of 4 bytes in the register region. -/
def accessLegal (a : Nat) (n : AccessSize) : Bool :=
  decide (a % n.bytes = 0) && decide (regionOf a ≠ .reserved) && (decide (regionOf a ≠ .registers) || decide (n = .four))

/-- The register at an offset of the register region (10_state section 2). -/
def regAt (a : Nat) : Option Reg :=
  match a with
  | 0x000 => some .id
  | 0x004 => some .ctrl
  | 0x008 => some .fs
  | 0x00C => some .frame
  | 0x010 => some .maxcomb
  | 0x014 => some .absRatio
  | 0x018 => some .relRatio
  | 0x01C => some .cmd
  | 0x020 => some .status
  | 0x024 => some .errFlags
  | 0x028 => some .irqStatus
  | 0x02C => some .irqEn
  | 0x030 => some .result
  | 0x034 => some .cand
  | 0x038 => some .candCnt
  | 0x03C => some .candIn
  | 0x040 => some .lagIn
  | 0x044 => some .chunkCnt
  | 0x048 => some .frameCnt
  | 0x04C => some .rejectCnt
  | 0x050 => some .payLen
  | 0x054 => some .decProg
  | _ => none

/-- The value of a register as the host reads it (10_state R34 to R55). Bits that are not stored read 0. -/
def readReg (r : Reg) (s : State) : Word :=
  match r with
  | .id => 0x56500007
  | .ctrl => s.settings.ctrl.setWidth 32
  | .fs => s.settings.fs.setWidth 32
  | .frame => s.settings.frame.setWidth 32
  | .maxcomb => s.settings.maxcomb
  | .absRatio => s.settings.absRatio
  | .relRatio => s.settings.relRatio
  | .cmd => 0
  | .status => statusWord s
  | .errFlags => s.errFlags.setWidth 32
  | .irqStatus => s.irqStatus.setWidth 32
  | .irqEn => s.irqEn.setWidth 32
  | .result => resultWord s
  | .cand => candWord s
  | .candCnt => candCntWord s
  | .candIn => s.candIn
  | .lagIn => s.lagIn
  | .chunkCnt => s.session.chunkCnt
  | .frameCnt => s.session.frameCnt
  | .rejectCnt => s.session.rejectCnt
  | .payLen => s.session.payLen.setWidth 32
  | .decProg => BitVec.ofNat 32 s.session.prog

/-- A write to CMD (60_exceptions R302): accepted into PEND, or dropped with a BUSY error. -/
def issueCommand (w : Word) (s : State) : State :=
  if s.busy then report .busy s else { s with pend := w, busy := true }

/-- A 32-bit write to a register (10_state R34 to R55, 20_memory R87). A write to CAND_IN or LAG_IN while BUSY = 1 is the
hazard of 70_reset R352. -/
def writeReg (r : Reg) (a : Offset) (v : Word) (s : State) : Host.Outcome State Fault Refusal :=
  match r with
  | .ctrl => .next { s with settings := { s.settings with ctrl := v.setWidth 4 } }
  | .fs => .next { s with settings := { s.settings with fs := v.setWidth 17 } }
  | .frame => .next { s with settings := { s.settings with frame := v.setWidth 24 } }
  | .maxcomb => .next { s with settings := { s.settings with maxcomb := v } }
  | .absRatio => .next { s with settings := { s.settings with absRatio := v } }
  | .relRatio => .next { s with settings := { s.settings with relRatio := v } }
  | .cmd => .next (issueCommand v s)
  | .errFlags => .next (ackErrors v s)
  | .irqStatus => .next (ackIrq v s)
  | .irqEn => .next { s with irqEn := v.setWidth 4 }
  | .candIn => if s.busy then .fault (.busyHazard true a) else .next { s with candIn := v }
  | .lagIn => if s.busy then .fault (.busyHazard true a) else .next { s with lagIn := v }
  | .id => .next s
  | .status => .next s
  | .result => .next s
  | .cand => .next s
  | .candCnt => .next s
  | .chunkCnt => .next s
  | .frameCnt => .next s
  | .rejectCnt => .next s
  | .payLen => .next s
  | .decProg => .next s

/-- The host's bus answered (log 9). -/
def answer (data : Word) (error : Bool) (s : State) : State := { s with bus := ⟨data, error⟩ }

/-- A BUS error (20_memory R83): the error report; a read answers 0; the bus-level response is BUS_ERR_RESPONSE (93 I5). -/
def busError (s : State) : State := answer 0 Config.busErrSignalled (report .bus s)

/-- The value of `n` bytes from offset `a` upward (20_memory R85). -/
def bufferValue (s : State) (a : Nat) (n : AccessSize) : Word := BitVec.ofNat 32 (leValue (bytesAt s a n.bytes))

/-- MemRead(a, n) (00_scope R11). Reading OUT_BUF or CW_BUF while BUSY = 1 is the hazard of 70_reset R352. -/
def hostRead (a : Offset) (n : AccessSize) (s : State) : Host.Outcome State Fault Refusal :=
  if accessLegal a.toNat n then
    match regionOf a.toNat with
    | .registers =>
      match regAt a.toNat with
      | some r => .next (answer (readReg r s) false s)
      | none => .next (busError s)
    | .cwBuf => if s.busy then .fault (.busyHazard false a) else .next (answer (bufferValue s a.toNat n) false s)
    | .outBuf => if s.busy then .fault (.busyHazard false a) else .next (answer (bufferValue s a.toNat n) false s)
    | .payload => .next (answer (bufferValue s a.toNat n) false s)
    | .inBuf => .next (answer (bufferValue s a.toNat n) false s)
    | .reserved => .next (busError s)
  else .next (busError s)

/-- A write of `n` bytes into a buffer, or the hazard of 70_reset R352 while BUSY = 1. -/
def bufferWrite (a : Offset) (n : AccessSize) (v : Word) (s : State) : Host.Outcome State Fault Refusal :=
  if s.busy then .fault (.busyHazard true a) else .next (storeBytes a.toNat (leBytes n.bytes v.toNat) s)

/-- MemWrite(a, n, v) (00_scope R11), before the bus is answered. A write to PAYLOAD is ignored (20_memory R84). -/
def hostWriteEffect (a : Offset) (n : AccessSize) (v : Word) (s : State) : Host.Outcome State Fault Refusal :=
  match regionOf a.toNat with
  | .registers =>
    match regAt a.toNat with
    | some r => writeReg r a v s
    | none => .next (busError s)
  | .cwBuf => bufferWrite a n v s
  | .inBuf => bufferWrite a n v s
  | .outBuf => bufferWrite a n v s
  | .payload => .next s
  | .reserved => .next (busError s)

/-- MemWrite(a, n, v) (00_scope R11): an illegal access is a BUS error and is dropped, whatever it is aimed at (log 7). -/
def hostWrite (a : Offset) (n : AccessSize) (v : Word) (s : State) : Host.Outcome State Fault Refusal :=
  if accessLegal a.toNat n then hostWriteEffect a n v (answer 0 false s) else .next (busError s)

end Sys2Proof.Machine
end

