-- ==== Sys2Proof/Machine/Cycle.lean ====
section
/-! DEFINITION. The core step (60_exceptions R303), the reset input (70_reset R340), and what one event of the total order
of 20_memory R89 does. -/

namespace Sys2Proof.Machine

/-- The end of a core step whose command gave an outcome (R303). -/
def finishCommand (r : Host.Outcome State Fault Refusal) : Host.Outcome State Fault Refusal :=
  match r with
  | .next t => .next (complete t)
  | .fault f => .fault f
  | .refused f => .refused f

/-- What the command word in PEND does (R303, 30_encoding R109): a decode error, or the command's rule. -/
def runCommand (s : State) : Host.Outcome State Fault Refusal :=
  match decode s.pend with
  | .illegalOp => raise .illegalOp s
  | .reservedField => raise .reservedField s
  | .ok i => exec i s

/-- core_step() (R303). -/
def coreStep (s : State) : Host.Outcome State Fault Refusal := finishCommand (runCommand s)

/-- The core's turn: one core step while BUSY = 1, nothing otherwise (10_state R30, 60_exceptions R323). -/
def coreTurn (s : State) : Host.Outcome State Fault Refusal := if s.busy then coreStep s else .next s

/-- The reset input (R340): every field as at reset; the RAM contents are free again (93 I1), and a pending command is
discarded. The schedule is outside the machine and goes on (log 17). -/
def resetInput (s : State) : State := { State.reset with events := s.events, epoch := s.epoch + 1 }

/-- One event (20_memory R88, R89). -/
def runEvent (e : Event) (s : State) : Host.Outcome State Fault Refusal :=
  match e with
  | .read a n => hostRead a n s
  | .write a n v => hostWrite a n v s
  | .core => coreTurn s
  | .reset => .next (resetInput s)

/-- The next thing that happens: the first event of the schedule, taken from it; with nothing scheduled, the core's turn. -/
def advance (s : State) : Host.Outcome State Fault Refusal :=
  match s.events with
  | [] => coreTurn s
  | e :: rest => runEvent e { s with events := rest }

/-- The state in which the word w is the accepted command (60_exceptions R302) and the core has the next turn. -/
def withCommand (w : Word) (s : State) : State := { s with pend := w, busy := true, events := .core :: s.events }

end Sys2Proof.Machine
end

