-- ==== Sys2Proof/Machine/Step.lean ====
section
/-! DEFINITION. The step of the machine: one event of the total order of 20_memory R89. -/

namespace Sys2Proof.Machine

/-- One step: a host access, a core step, a reset, or nothing when the machine is idle. -/
def step (s : State) : Host.Outcome State Fault Refusal := advance s

/-- The instruction of `nbits` bits w as the accepted command, the core having the next turn, so that the very next step
runs it. VPCORE fetches nothing (10_state R33): a command comes from a host write to CMD, which this stands for (log 1). -/
def State.withFetchWord (s : State) (nbits w : Nat) : State := withCommand (BitVec.ofNat 32 (w % 2 ^ nbits)) s

end Sys2Proof.Machine
end

