-- ==== Sys2Proof/Machine/Ideal.lean ====
section
/-! DEFINITION. The ideal values of 00_scope R13: the formulas of Machine/Formulas.lean over the real numbers with the
true cosine, sine and π. The machine never computes them; claims speak of them. -/

namespace Sys2Proof.Machine

/-- The true elementary functions. -/
noncomputable def idealTrig : Trig ℝ where
  pi := Real.pi
  cosTurn := fun x => Real.cos (2 * Real.pi * (x : ℝ))
  sinTurn := fun x => Real.sin (2 * Real.pi * (x : ℝ))

/-- The ideal h_n of R181. -/
noncomputable def idealCoef (ftype : FilterType) (fc fs n : Nat) : ℝ := firDesign idealTrig ftype fc fs n

/-- The ideal v(n) of R231. -/
noncomputable def idealTone (amp f fs len n : Nat) : ℝ := toneFormula idealTrig amp f fs len n

end Sys2Proof.Machine
end

