-- ==== Sys2Proof/Machine/Wire.lean ====
section
/-! DEFINITION. The acoustic wire format (30_encoding section 6): what a transmitting host sends and the frame decoder
accepts. No command computes it; claims about the decoder speak of it. -/

namespace Sys2Proof.Machine

/-- The data bytes FR[0..N] of a frame (R111): the sync bytes, then the payload zero-padded to N − 1 bytes. -/
def frameData (c : Cfg) (n : Nat) (payload : List Byte) : List Byte :=
  c.sync0 :: c.sync1 :: (payload ++ List.replicate (n - 1 - payload.length) 0)

/-- The frame FR[0..FB−1] (R111): the data bytes and their K parity bytes. -/
def frameOf (c : Cfg) (n k : Nat) (payload : List Byte) : List Byte :=
  frameData c n payload ++ rsEncode (frameData c n payload) k

/-- The symbols of a frame (R112): each byte's low nibble, then its high nibble. -/
def frameSymbols : List Byte → List Nat
  | [] => []
  | b :: bs => b.toNat % 16 :: b.toNat / 16 :: frameSymbols bs

/-- The first pieces of T of `size` bytes each, at most `fuel` of them (R114). -/
def pieces (size : Nat) : Nat → List Byte → List (List Byte)
  | 0, _ => []
  | _, [] => []
  | fuel + 1, b :: bs => (b :: bs).take size :: pieces size fuel ((b :: bs).drop size)

/-- The frames of a string (R114): T = S ++ (0x00) cut into pieces of N − 1 bytes, each a frame. -/
def framesOfString (c : Cfg) (n k : Nat) (str : List Byte) : List (List Byte) :=
  (pieces (n - 1) (str.length + 1) (str ++ [0])).map (frameOf c n k)

end Sys2Proof.Machine
end

