-- ==== Sys2Proof/Safety.lean ====
section
/-! DEFINITION. The terms that claims use: which error a command ends with, what a command leaves alone, the invariants of
the machine, and safe runs. -/

namespace Sys2Proof.Machine

/-! ### Errors of commands (60_exceptions R300, R301, R306) -/

/-- The settings fail INIT's validation: one of the six conditions of 40_control R132 holds. -/
def SettingsInvalid (t : Settings) : Prop :=
  t.band = 3
    ∨ (t.band = 0 ∧ t.fs.toNat ≠ 16000) ∨ (t.band = 1 ∧ t.fs.toNat ≠ 32000) ∨ (t.band = 2 ∧ t.fs.toNat ≠ 44100)
    ∨ t.n.toNat < 2
    ∨ 253 < t.n.toNat + t.k.toNat
    ∨ t.maxstr.toNat < 2
    ∨ t.maxcomb = 0

/-- The command needs READY = 1 (60_exceptions R301). -/
def needsReady : Instr → Bool
  | .nop => false
  | .init => false
  | .clear => true
  | .firRun _ => true
  | .analyze => true
  | .chunk => true
  | .candPush _ _ => true
  | .rsEnc _ _ => false
  | .rsDec _ _ => false
  | .synth _ => true

/-- The command's operands are illegal arguments: the full list of 30_encoding R110. -/
def BadArgument : Instr → Prop
  | .firRun l => l = 0 ∨ 8192 < l
  | .candPush cnt lcnt => cnt = 3 ∨ lcnt = 3
  | .rsEnc d k => d = 0 ∨ 255 < d + k
  | .rsDec d k => d = 0 ∨ 255 < d + k
  | _ => False

/-- The error a command's rule raises, by the priority of 60_exceptions R306. -/
def RaisesError (i : Instr) (s : State) (c : ErrCode) : Prop :=
  (c = .notReady ∧ needsReady i = true ∧ s.ready = false)
    ∨ (c = .badArg ∧ ¬(needsReady i = true ∧ s.ready = false) ∧ BadArgument i)
    ∨ (c = .cfgInvalid ∧ i = .init ∧ SettingsInvalid s.settings)

/-! ### Frames: what a command leaves alone -/

/-- What belongs to the host's side and no command writes: the settings registers, IRQ_EN, CAND_IN, LAG_IN; and what only
the common start and end of a command write: PEND and BUSY (60_exceptions R302, R303); and the model's own fields. -/
structure KeepsHostSide (s t : State) : Prop where
  settings : t.settings = s.settings
  irqEn : t.irqEn = s.irqEn
  candIn : t.candIn = s.candIn
  lagIn : t.lagIn = s.lagIn
  pend : t.pend = s.pend
  busy : t.busy = s.busy
  events : t.events = s.events
  bus : t.bus = s.bus
  epoch : t.epoch = s.epoch

/-- ERR_FLAGS and ERR_CODE are unchanged. -/
structure KeepsErrors (s t : State) : Prop where
  errFlags : t.errFlags = s.errFlags
  errCode : t.errCode = s.errCode

/-- RESULT is unchanged. -/
structure KeepsResult (s t : State) : Prop where
  count : t.resultCount = s.resultCount
  reject : t.resultReject = s.resultReject

/-- READY, L and H are unchanged. -/
structure KeepsLatch (s t : State) : Prop where
  ready : t.ready = s.ready
  latched : t.latched = s.latched
  h : t.h = s.h

/-- Every byte outside the `len` bytes from offset `base` reads as before. -/
def KeepsBytesOutside (base len : Nat) (s t : State) : Prop :=
  ∀ a, a < base ∨ base + len ≤ a → byteAt t a = byteAt s a

/-- The reserved bits of an opcode's format, the cells holding 0 in the table of 30_encoding R101. -/
def reservedBits (op : Nat) : Word :=
  match op with
  | 0x03 => 0x0000FF00
  | 0x06 => 0xFFFFF000
  | 0x08 => 0xFF000000
  | 0x09 => 0xFF000000
  | 0x0A => 0xFFFFF000
  | _ => 0xFFFFFF00

/-- The candidates that combination number m takes (45_decoder R257): the digits of m in mixed radix, slot 0 the most
significant. -/
def radixChoice : List Record → Nat → List Nat
  | [], _ => []
  | r :: rest, m => r.getD (m / candidateProduct rest) 0 :: radixChoice rest (m % candidateProduct rest)

/-- What every slot step leaves in the rings, CHUNK_CNT, CAND and CAND_CNT (43_spectral R210). -/
structure SlotPushed (rp rl : Record) (s t : State) : Prop where
  ring : t.session.ring = (s.session.ring ++ [rp]).drop 1
  lring : t.session.lring = (s.session.lring ++ [rl]).drop 1
  chunkCnt : t.session.chunkCnt = s.session.chunkCnt + 1
  bin0 : t.session.candBin0 = BitVec.ofNat 16 (rp.getD 0 0)
  bin1 : t.session.candBin1 = BitVec.ofNat 16 (rp.getD 1 0)
  cnt : t.session.candCnt = BitVec.ofNat 2 rp.length
  lcnt : t.session.lagCnt = BitVec.ofNat 2 rl.length

/-- What ANALYZE, CHUNK and CAND_PUSH leave alone (43_spectral R211, 45_decoder R266, R267, 60_exceptions R307): the
host's side, the error record, RESULT, READY, L and H; CMD_DONE and ERR; every set interrupt bit; and every byte outside the
PAY bytes from the old PAY_LEN to the new one. -/
structure SlotFrame (s t : State) : Prop where
  host : KeepsHostSide s t
  errors : KeepsErrors s t
  result : KeepsResult s t
  latch : KeepsLatch s t
  irqOther : t.irqStatus &&& 0b1001 = s.irqStatus &&& 0b1001
  irqKept : s.irqStatus &&& t.irqStatus = s.irqStatus
  bytes : KeepsBytesOutside (payBase + s.session.payLen.toNat)
    (t.session.payLen.toNat - s.session.payLen.toNat) s t

/-! ### Terms of the units -/

/-- tap[k] of the filter at input sample n of a run: IN[n − k], or the history before the run (42_fir R183). -/
def streamTap (s : State) (n k : Nat) : Int :=
  if k ≤ n then (inSample s (n - k)).toInt else (s.session.hist.getD (k - n - 1) 0).toInt

/-- k is the strongest bin of a set of bins: highest power, and among equal powers the lowest bin (43_spectral R204). -/
def StrongestBin (power : Nat → Rat) (bins : Nat → Prop) (k : Nat) : Prop :=
  bins k ∧ ∀ j, bins j → power j < power k ∨ (power j = power k ∧ k ≤ j)

/-- The sync test of AwaitingSync succeeds (45_decoder R252). -/
def SyncSeen (c : Cfg) (s : State) : Prop :=
  syncMatch c s.latched s.session.ring = true ∨ (s.latched.pre = true ∧ lagMatch c s.latched s.session.lring = true)

/-- A lag match is in force (45_decoder R262, R263). -/
def LagSeen (c : Cfg) (s : State) : Prop := s.latched.pre = true ∧ lagMatch c s.latched s.session.lring = true

/-- The N − 1 payload bytes of a decoded frame (30_encoding R111). -/
def framePayload (n : Nat) (fr : List Byte) : List Byte := (fr.drop 2).take (n - 1)

/-- The payload bytes before the terminating NUL (45_decoder R260). -/
def payloadText (n : Nat) (fr : List Byte) : List Byte := (framePayload n fr).takeWhile (fun b => decide (b ≠ 0))

/-- The bytes that accept(c) stores (45_decoder R260): the text as far as there is room, and the NUL if there is one. -/
def storedPayload (n room : Nat) (fr : List Byte) : List Byte :=
  (payloadText n fr).take room ++ (if 0 ∈ framePayload n fr then [0] else [])

/-! ### Invariants -/

/-- ERR_CODE is 0 exactly when no error flag is set (10_state R43, 60_exceptions R305). -/
def ErrorsConsistent (s : State) : Prop := s.errCode = 0 ↔ s.errFlags = 0

/-- The sizes that hold always (10_state R61, R62), and PROG is 0 outside Decoding (R66). -/
structure FixedShape (s : State) : Prop where
  h : s.h.length = 32
  hist : s.session.hist.length = 31
  prog : s.session.dstate ≠ .decoding → s.session.prog = 0

/-- What holds while READY = 1: the latched settings passed validation (40_control R132), the window and the rings have the
lengths that INIT fixed (R133), records have at most two bins (00_scope R16), the payload bound of 45_decoder R260, and
PROG's bound of R255. -/
structure SessionShape (c : Cfg) (s : State) : Prop where
  fs : s.latched.fs.toNat = rate s.latched.band
  n : 2 ≤ s.latched.n.toNat
  frame : s.latched.n.toNat + s.latched.k.toNat ≤ 253
  maxstr : 2 ≤ s.latched.maxstr.toNat
  maxcomb : s.latched.maxcomb ≠ 0
  wb : s.session.wb.length = fftSize c s.latched.band
  ring : s.session.ring.length = 8 * s.latched.frameSlots
  lring : s.session.lring.length = 8 * s.latched.frameSlots
  records : ∀ r ∈ s.session.ring, r.length ≤ 2
  lagRecords : ∀ r ∈ s.session.lring, r.length ≤ 2
  payLen : s.session.payLen.toNat ≤ s.latched.maxstr.toNat
  payRoom : s.session.dstate ≠ .done → s.session.payLen.toNat ≤ s.latched.maxstr.toNat - 1
  prog : s.session.dstate = .decoding → s.session.prog < 8 * (s.latched.frameSlots - 4)

/-- The invariant of the session: the fixed sizes, and the session's shape while READY = 1. -/
def SessionInv (c : Cfg) (s : State) : Prop := FixedShape s ∧ (s.ready = true → SessionShape c s)

/-! ### Events, and safe runs -/

/-- A host read answers `v` without an error, and nothing else changes (00_scope R11, 20_memory R87; log 9). -/
def ReadAnswers (s : State) (a : Offset) (n : AccessSize) (v : Word) : Prop :=
  hostRead a n s = .next { s with bus := ⟨v, false⟩ }


/-- The core has the next turn: it is scheduled next, or nothing is scheduled. -/
def CoreIsNext (s : State) : Prop := s.events = [] ∨ ∃ rest, s.events = .core :: rest

/-- The accesses that are hazards while BUSY = 1 (70_reset R352): legal writes to IN_BUF, OUT_BUF, CW_BUF, CAND_IN or
LAG_IN, legal reads of OUT_BUF or CW_BUF. -/
def HazardAccess : Event → Prop
  | .read a n => accessLegal a.toNat n = true ∧ (regionOf a.toNat = .outBuf ∨ regionOf a.toNat = .cwBuf)
  | .write a n _ => accessLegal a.toNat n = true
      ∧ (regionOf a.toNat = .inBuf ∨ regionOf a.toNat = .outBuf ∨ regionOf a.toNat = .cwBuf
        ∨ a.toNat = 0x03C ∨ a.toNat = 0x040)
  | .core => False
  | .reset => False

/-- `k` steps from a state end in a next state: the run meets no hazard. -/
def SafeRun (k : Nat) (s : State) : Prop := ∃ t, Sys2Proof.core.run k s = .next t

end Sys2Proof.Machine
end

