-- ==== Sys2Proof/Certificates/Slice0/Obligations.lean ====
section
/-! DEFINITION. The statements about this model, each one a Prop. OBLIGATIONS.json lists them in order. -/

section Statements

open Sys2Proof Sys2Proof.Machine

/-! ### Encoding -/

/-- Decoding an encoded well-formed command gives the command back (30_encoding R108, R109, R116). -/
def Obligations.DecodeOfEncodeIsTheCommand : Prop :=
  ∀ i : Instr, i.wellFormed = true → decode (encode i) = .ok i ∧ assemble i = some (encode i)

/-- Every command word has one encoding: the word itself (30_encoding R108, R116). -/
def Obligations.EncodeOfDecodeIsTheWord : Prop :=
  ∀ (w : Word) (i : Instr), decode w = .ok i → i.wellFormed = true ∧ encode i = w

/-- The three outcomes of decoding, by the opcode and the reserved bits (30_encoding R118, R109, R101). -/
def Obligations.DecodeOutcomesByOpcodeAndReservedBits : Prop :=
  ∀ w : Word,
    (decode w = .illegalOp ↔ opField w = 7 ∨ 0x0B ≤ opField w)
      ∧ (decode w = .reservedField ↔ ¬(opField w = 7 ∨ 0x0B ≤ opField w) ∧ w &&& reservedBits (opField w) ≠ 0)
      ∧ ((∃ i, decode w = .ok i) ↔ ¬(opField w = 7 ∨ 0x0B ≤ opField w) ∧ w &&& reservedBits (opField w) = 0)

/-- Words written out from the encoding tables decode to the commands they stand for (30_encoding R102 to R106, R116). -/
def Obligations.WrittenOutWordsDecode : Prop :=
  decode 0x00000000 = .ok .nop ∧ decode 0x00000001 = .ok .init ∧ decode 0x00000002 = .ok .clear
    ∧ decode 0x00800003 = .ok (.firRun 128) ∧ decode 0x00000004 = .ok .analyze ∧ decode 0x00000005 = .ok .chunk
    ∧ decode 0x00000606 = .ok (.candPush 2 1) ∧ decode 0x00040208 = .ok (.rsEnc 4 2)
    ∧ decode 0x000C0809 = .ok (.rsDec 12 8) ∧ decode 0x00000F0A = .ok (.synth 15)
    ∧ decode 0x00000007 = .illegalOp ∧ decode 0x000000FF = .illegalOp
    ∧ decode 0x00000100 = .reservedField ∧ decode 0x01000008 = .reservedField

/-! ### The step -/

/-- When the core has the next turn and the accepted word decodes to i, the step is i's meaning on the state with that turn
taken from the schedule, and then BUSY <- 0 and CMD_DONE <- 1; a word that does not decode ends its core step with the
error report alone (60_exceptions R303, 30_encoding R109). -/
def Obligations.StepRunsTheDecodedCommand : Prop :=
  ∀ s : State, s.busy = true → CoreIsNext s →
    (∀ i, decode s.pend = .ok i →
        ∃ t, exec i { s with events := s.events.tail } = .next t
          ∧ step s = .next { t with busy := false, irqStatus := t.irqStatus ||| 0b0001 })
      ∧ (decode s.pend = .illegalOp →
          step s = .next (complete (report .illegalOp { s with events := s.events.tail })))
      ∧ (decode s.pend = .reservedField →
          step s = .next (complete (report .reservedField { s with events := s.events.tail })))

/-- The core's turn: while BUSY = 1 it ends the accepted word in one step, a next state with BUSY = 0, CMD_DONE = 1 and no
interrupt bit lost; while BUSY = 0 nothing changes (60_exceptions R303, R311, R323). That PEND keeps the word is log 15,
that an unscheduled step is the core's turn is log 1. -/
def Obligations.CoreStepEndsEveryCommand : Prop :=
  ∀ s : State, CoreIsNext s →
    (s.busy = true →
      ∃ t, step s = .next t ∧ t.busy = false ∧ t.irqStatus.getLsbD 0 = true
        ∧ s.irqStatus &&& t.irqStatus = s.irqStatus ∧ t.pend = s.pend ∧ t.events = s.events.tail)
      ∧ (s.busy = false → step s = .next { s with events := s.events.tail })

/-- The acceptance of a command (60_exceptions R302), for the step that takes the host's write from the schedule. -/
def Obligations.CmdWriteIsAcceptedOrDropped : Prop :=
  ∀ (s : State) (w : Word) (rest : List Event),
    (s.events = .write 0x01C .four w :: rest →
      (s.busy = false →
        ∃ answered, step s = .next { s with pend := w, busy := true, events := rest, bus := answered })
      ∧ (s.busy = true →
        ∃ answered, step s = .next { report .busy s with events := rest, bus := answered }))
    ∧ (∀ n : AccessSize, n ≠ .four → s.events = .write 0x01C n w :: rest →
        ∃ answered, step s = .next { report .bus s with events := rest, bus := answered })

/-- Which error each command ends with, and that an error changes nothing but the error report, and READY for a failed INIT
(60_exceptions R301, R304, R306, 30_encoding R110). -/
def Obligations.CommandErrorsArePrecise : Prop :=
  ∀ (i : Instr) (s : State), i.wellFormed = true →
    (∀ c, RaisesError i s c → exec i s = .next (report c (if c = .cfgInvalid then { s with ready := false } else s)))
      ∧ ((∀ c, ¬RaisesError i s c) →
          ∃ t, exec i s = .next t ∧ KeepsErrors s t ∧ t.irqStatus.getLsbD 3 = s.irqStatus.getLsbD 3)

/-- The error report (60_exceptions R305), and the W1C write that acknowledges errors. -/
def Obligations.ErrorReportIsStickyAndKeepsTheFirstCode : Prop :=
  ∀ (c : ErrCode) (s : State),
    (∀ j, j < 7 → (report c s).errFlags.getLsbD j = (s.errFlags.getLsbD j || decide (j + 1 = c.code)))
      ∧ (report c s).errCode = (if s.errFlags = 0 then BitVec.ofNat 8 c.code else s.errCode)
      ∧ (∀ j, j < 4 → (report c s).irqStatus.getLsbD j = (s.irqStatus.getLsbD j || decide (j = 3)))
      ∧ report c s = { s with errFlags := (report c s).errFlags, errCode := (report c s).errCode,
                              irqStatus := (report c s).irqStatus }
      ∧ ∀ v : Word,
        (∀ j, j < 7 → (ackErrors v s).errFlags.getLsbD j = (s.errFlags.getLsbD j && !v.getLsbD j))
          ∧ (ackErrors v s).errCode = (if (ackErrors v s).errFlags = 0 then 0 else s.errCode)

/-! ### Control commands -/

/-- NOP does nothing, whatever READY is, and its core step is the common completion (40_control R130). -/
def Obligations.NopChangesNothing : Prop :=
  ∀ s : State,
    exec .nop s = .next s
      ∧ (s.busy = true → CoreIsNext s → s.pend = 0x00000000 →
          step s = .next { s with busy := false, irqStatus := s.irqStatus ||| 0b0001, events := s.events.tail })

/-- INIT with valid settings latches them, computes H, and starts a fresh session (40_control R131, R133, R134). The
coefficients are the computed ones, whose error term is free (log 5). -/
def Obligations.InitLatchesAndStartsAFreshSession : Prop :=
  ∀ s : State, ¬SettingsInvalid s.settings →
    ∃ t, exec .init s = .next t ∧ t.ready = true
      ∧ bandOfBits s.settings.band = some t.latched.band
      ∧ t.latched.fs = s.settings.fs ∧ t.latched.n = s.settings.n ∧ t.latched.k = s.settings.k
      ∧ t.latched.maxstr = s.settings.maxstr ∧ t.latched.maxcomb = s.settings.maxcomb
      ∧ t.latched.abs = (s.settings.absRatio.toNat : Rat) / 65536
      ∧ t.latched.rel = (s.settings.relRatio.toNat : Rat) / 65536
      ∧ t.latched.pre = s.settings.ctrl.getLsbD 2 ∧ t.latched.fcs = s.settings.ctrl.getLsbD 3
      ∧ t.h.length = 32
      ∧ (∀ n, n < 32 → t.h.getD n 0
          = coefValue params.num (bandCfg params.cfg t.latched.band).ftype (bandCfg params.cfg t.latched.band).fc
              t.latched.fs.toNat n)
      ∧ t.session = Session.fresh (fftSize params.cfg t.latched.band) (8 * t.latched.frameSlots)
      ∧ (∀ i, i < 256 → byteAt t (payBase + i) = 0)
      ∧ KeepsBytesOutside payBase 256 s t
      ∧ KeepsHostSide s t ∧ KeepsErrors s t ∧ KeepsResult s t ∧ t.irqStatus = s.irqStatus

/-- CLEAR starts a fresh session with the latched settings and changes nothing else; it needs READY (40_control R134, R135). -/
def Obligations.ClearStartsAFreshSession : Prop :=
  ∀ s : State, (s.ready = false → exec .clear s = .next (report .notReady s)) ∧ (s.ready = true →
    ∃ t, exec .clear s = .next t
      ∧ t = { s with session := t.session, mem := t.mem }
      ∧ t.session.hist = List.replicate 31 0
      ∧ t.session.wb = List.replicate (fftSize params.cfg s.latched.band) 0
      ∧ t.session.ring = List.replicate (8 * s.latched.frameSlots) []
      ∧ t.session.lring = List.replicate (8 * s.latched.frameSlots) []
      ∧ t.session.dstate = .awaitingSync ∧ t.session.prog = 0
      ∧ t.session.payLen = 0 ∧ t.session.payOvf = false
      ∧ t.session.chunkCnt = 0 ∧ t.session.frameCnt = 0 ∧ t.session.rejectCnt = 0
      ∧ candWord t = 0 ∧ candCntWord t = 0
      ∧ (∀ i, i < 256 → byteAt t (payBase + i) = 0)
      ∧ KeepsBytesOutside payBase 256 s t)

/-- While the settings are those of the last INIT, a further INIT is a CLEAR (40_control R131, corner cases). -/
def Obligations.RepeatedInitIsClear : Prop :=
  ∀ s t u : State, exec .init s = .next t → t.ready = true →
    u.settings = s.settings → u.latched = t.latched → u.h = t.h → u.ready = true →
    exec .init u = exec .clear u

/-- CLEAR isolates sessions: two ready states that differ only in their sessions and PAY bytes become one and the same state
(40_control R134: nothing of one message leaks into the next). The memories are in the model's canonical form (log 3). -/
def Obligations.ClearLeaksNothingOfTheSession : Prop :=
  ∀ (s : State) (x : Session) (m : Memory), s.ready = true → s.mem.wf = true → m.wf = true →
    (∀ a, a < payBase ∨ payBase + 256 ≤ a → m.lookup a = s.mem.lookup a) →
    exec .clear { s with session := x, mem := m } = exec .clear s

/-- No command but INIT reads the settings registers (40_control R133, 70_reset R353, 00_scope R18). -/
def Obligations.SettingsTakeEffectOnlyAtInit : Prop :=
  ∀ (i : Instr) (s t : State) (x : Settings), i ≠ .init → exec i s = .next t →
    exec i { s with settings := x } = .next { t with settings := x }

/-! ### FIR -/

/-- FIR_RUN L filters IN[0..L−1] into OUT[0..L−1], moves the history, and changes nothing else (42_fir R183, R186, R188). The
value y is the computed one, whose error term is free (log 5). -/
def Obligations.FirRunFiltersTheInput : Prop :=
  ∀ (s : State) (l : Nat), s.ready = true → 1 ≤ l → l ≤ 8192 → s.session.hist.length = 31 →
    ∃ t, exec (.firRun l) s = .next t
      ∧ (∀ n, n < l → (outSample t n).toInt
          = sat16 (rne (firValue params.num s.h ((List.range 32).map (streamTap s n)))))
      ∧ t.session.hist.length = 31
      ∧ (∀ k, k < 31 → (t.session.hist.getD k 0).toInt = streamTap s (l - 1) k)
      ∧ KeepsBytesOutside outBase (2 * l) s t
      ∧ t = { s with session := { s.session with hist := t.session.hist }, mem := t.mem }

/-- One run over a stream gives the outputs and the history of two runs over its pieces (42_fir R184). -/
def Obligations.FirRunsOverPiecesAgree : Prop :=
  ∀ (s u t t1 t2 : State) (l1 l2 : Nat), s.ready = true → u.ready = true → 1 ≤ l1 → 1 ≤ l2 → l1 + l2 ≤ 8192 →
    exec (.firRun (l1 + l2)) s = .next t → exec (.firRun l1) s = .next t1 →
    u.h = s.h → u.session.hist = t1.session.hist → (∀ n, n < l2 → inSample u n = inSample s (l1 + n)) →
    exec (.firRun l2) u = .next t2 →
    (∀ n, n < l1 → outSample t1 n = outSample t n)
      ∧ (∀ n, n < l2 → outSample t2 n = outSample t (l1 + n))
      ∧ t2.session.hist = t.session.hist

/-- The ideal values (00_scope R13): the ideal coefficients are symmetric about 15.5, and so the ideal filter's response at
half the sample rate is 0 (42_fir R182, R185); the ideal burst value starts at 0 and never exceeds SYN_AMP (44_synth R231). -/
def Obligations.IdealFilterIsSymmetricAndIdealToneBounded : Prop :=
  (∀ (ftype : FilterType) (fc fs : Nat),
    (∀ n, n ≤ 31 → idealCoef ftype fc fs n = idealCoef ftype fc fs (31 - n))
      ∧ ((List.range 32).map (fun n => (-1 : ℝ) ^ n * idealCoef ftype fc fs n)).sum = 0)
  ∧ ∀ (amp f fs len n : Nat), idealTone amp f fs len 0 = 0 ∧ |idealTone amp f fs len n| ≤ (amp : ℝ)

/-- rne rounds to the nearest integer, a tie to the even one, and sat16 clamps (00_scope R15). -/
def Obligations.RoundingAndSaturation : Prop :=
  (∀ (x : Rat) (n : ℤ), rne x = n ↔ |x - n| < 1 / 2 ∨ (|x - n| = 1 / 2 ∧ Even n))
    ∧ ∀ v : ℤ, sat16 v = max (-32768) (min 32767 v)

/-! ### Spectral engine -/

/-- The bin of a frequency is the nearest integer to f × FFT_SIZE / RATE, a tie rounded up (00_scope R17). -/
def Obligations.BinOfAFrequencyIsRounded : Prop :=
  ∀ (c : Cfg) (b : Band) (f : Nat),
    binOf c b f = (2 * f * fftSize c b + rate b) / (2 * rate b)
      ∧ ((binOf c b f : Nat) : ℤ) = ⌊((f : ℚ) * (fftSize c b : ℚ)) / (rate b : ℚ) + 1 / 2⌋

/-- The payload region covers every tone of the band and a guard margin on each side, within 0..FFT/2 (43_spectral R200). -/
def Obligations.PayloadRegionCoversEveryTone : Prop :=
  ∀ (c : Cfg) (b : Band) (s : Nat), cfgValid c = true → s < 16 →
    (payloadRegion c b).1 ≤ symbolBin c b s - guardBins c b
      ∧ symbolBin c b s ≤ fftSize c b / 2
      ∧ min (fftSize c b / 2) (symbolBin c b s + guardBins c b) ≤ (payloadRegion c b).2
      ∧ (payloadRegion c b).2 ≤ fftSize c b / 2

/-- A window push keeps the window's length, shifts it by the chunk and appends the chunk; eight pushes replace a window of
eight chunks (43_spectral R202). -/
def Obligations.EightPushesReplaceTheWindow : Prop :=
  (∀ (wb v : List Rat) (i : Nat), v.length ≤ wb.length →
      (pushWindow wb v).length = wb.length
        ∧ (i < wb.length - v.length → (pushWindow wb v).getD i 0 = wb.getD (i + v.length) 0)
        ∧ (i < v.length → (pushWindow wb v).getD (wb.length - v.length + i) 0 = v.getD i 0))
    ∧ ∀ (wb : List Rat) (vs : List (List Rat)) (n : Nat), wb.length = 8 * n → vs.length = 8 →
        (∀ v ∈ vs, v.length = n) → vs.foldl pushWindow wb = vs.flatten

/-- The record of a region (43_spectral R204 to R206): its first bin is the strongest of the region if it clears the floor, its
second the strongest outside the guard of the first, if that one clears the floor and the relative threshold. -/
def Obligations.RecordIsTheStrongestBins : Prop :=
  ∀ (power : Nat → Rat) (lo hi guard k0 kmin : Nat) (abs rel : Rat), 1 ≤ guard →
    StrongestBin power (fun k => lo ≤ k ∧ k ≤ hi) k0 →
    lo ≤ kmin → kmin ≤ hi → (∀ k, lo ≤ k → k ≤ hi → power kmin ≤ power k) →
    (power k0 ≤ abs * power kmin → selectRecord power lo hi guard abs rel = [])
      ∧ (abs * power kmin < power k0 →
          ((∀ k, lo ≤ k → k ≤ hi → binDist k k0 < guard) → selectRecord power lo hi guard abs rel = [k0])
          ∧ ∀ k1, StrongestBin power (fun k => (lo ≤ k ∧ k ≤ hi) ∧ guard ≤ binDist k k0) k1 →
              selectRecord power lo hi guard abs rel
                = if abs * power kmin < power k1 ∧ rel * power k0 < power k1 then [k0, k1] else [k0])

/-- Every bin of a record lies in its region, two bins differ by at least GUARD, a lag record is empty while L.PRE = 0
(43_spectral R207), and a silent window gives no candidate (R205: "An all-zero window gives P ≡ 0"). That the computed
power of such a window is exactly 0, whatever the free error term, is log 6. -/
def Obligations.RecordBinsLieInTheRegion : Prop :=
  ∀ (p : Params) (l : Latched) (wb : List Rat),
    (payloadRecord p l wb).length ≤ 2
      ∧ (∀ k ∈ payloadRecord p l wb,
          (payloadRegion p.cfg l.band).1 ≤ k ∧ k ≤ (payloadRegion p.cfg l.band).2)
      ∧ (∀ k0 k1, payloadRecord p l wb = [k0, k1] → guardBins p.cfg l.band ≤ binDist k1 k0)
      ∧ (lagRecord p l wb).length ≤ 2
      ∧ (∀ k ∈ lagRecord p l wb, (lagRegion p.cfg l.band).1 ≤ k ∧ k ≤ (lagRegion p.cfg l.band).2)
      ∧ (∀ k0 k1, lagRecord p l wb = [k0, k1] → guardBins p.cfg l.band ≤ binDist k1 k0)
      ∧ (l.pre = false → lagRecord p l wb = [])
      ∧ ((∀ x ∈ wb, x = 0) → payloadRecord p l wb = [] ∧ lagRecord p l wb = [])

/-- ANALYZE pushes CHUNK raw samples into the window and makes one slot step with the records of the new window
(43_spectral R202, R207, R210, R211). The records come from the computed powers (log 5). -/
def Obligations.AnalyzeMakesOneSlotStep : Prop :=
  ∀ (s : State) (v wb : List Rat), s.ready = true →
    v = (List.range (chunkLen params.cfg s.latched.band)).map (fun n => (((inSample s n).toInt : ℤ) : Rat)) →
    wb = pushWindow s.session.wb v →
    ∃ t, exec .analyze s = .next t
      ∧ t = decoderStep params.cfg
          (pushSlot (payloadRecord params s.latched wb) (lagRecord params s.latched wb)
            { s with session := { s.session with wb := wb } })
      ∧ t.session.wb = wb
      ∧ SlotPushed (payloadRecord params s.latched wb) (lagRecord params s.latched wb) s t
      ∧ SlotFrame s t

/-- CHUNK filters CHUNK samples without rounding, pushes the outputs into the window and makes one slot step with the records
of the new window (45_decoder R266, 42_fir R183, R188). OUT is not written. The values are the computed ones (log 5). -/
def Obligations.ChunkFiltersThenMakesOneSlotStep : Prop :=
  ∀ (s : State) (v wb : List Rat), s.ready = true → s.session.hist.length = 31 →
    v = (List.range (chunkLen params.cfg s.latched.band)).map
      (fun n => firValue params.num s.h ((List.range 32).map (streamTap s n))) →
    wb = pushWindow s.session.wb v →
    ∃ hist t, hist.length = 31
      ∧ (∀ k, k < 31 → (hist.getD k 0).toInt = streamTap s (chunkLen params.cfg s.latched.band - 1) k)
      ∧ exec .chunk s = .next t
      ∧ t = decoderStep params.cfg
          (pushSlot (payloadRecord params s.latched wb) (lagRecord params s.latched wb)
            { s with session := { s.session with wb := wb, hist := hist } })
      ∧ t.session.wb = wb
      ∧ SlotPushed (payloadRecord params s.latched wb) (lagRecord params s.latched wb) s t
      ∧ SlotFrame s t

/-- CAND_PUSH makes one slot step with the first CNT bins of CAND_IN and the first LCNT bins of LAG_IN, leaving the window
alone (45_decoder R267, 43_spectral R210). -/
def Obligations.CandPushMakesOneSlotStep : Prop :=
  ∀ (s : State) (cnt lcnt : Nat) (rp rl : Record), s.ready = true → cnt ≤ 2 → lcnt ≤ 2 →
    rp = [s.candIn.toNat % 65536, s.candIn.toNat / 65536].take cnt →
    rl = [s.lagIn.toNat % 65536, s.lagIn.toNat / 65536].take lcnt →
    ∃ t, exec (.candPush cnt lcnt) s = .next t
      ∧ t = decoderStep params.cfg (pushSlot rp rl s)
      ∧ t.session.wb = s.session.wb
      ∧ (t.session.hist = s.session.hist
          ∨ (s.latched.fcs = true ∧ t.session.dstate = .decoding ∧ t.session.prog = 0
              ∧ t.session.hist = List.replicate 31 0))
      ∧ SlotPushed rp rl s t
      ∧ SlotFrame s t

/-! ### Frame decoder -/

/-- syncMatch and lagMatch on rings of 8F records (45_decoder R253, R262): the four sync nibbles, or the two sync tones, one
symbol period apart, the last one in the newest slot. -/
def Obligations.SyncTestsLookOneSymbolPeriodApart : Prop :=
  ∀ (c : Cfg) (l : Latched) (ring : List Record), ring.length = 8 * l.frameSlots →
    (syncMatch c l ring = true ↔
      ∀ (j nib : Nat),
        (j = 0 ∧ nib = c.sync0.toNat % 16) ∨ (j = 1 ∧ nib = c.sync0.toNat / 16)
          ∨ (j = 2 ∧ nib = c.sync1.toNat % 16) ∨ (j = 3 ∧ nib = c.sync1.toNat / 16) →
        ∃ r x, ring[8 * l.frameSlots - 1 - 8 * (3 - j)]? = some r ∧ x ∈ r
          ∧ ((x : ℤ) - (symbolBin c l.band nib : ℤ)).natAbs < guardBins c l.band)
    ∧ (lagMatch c l ring = true ↔
      (∃ r x, ring[8 * l.frameSlots - 1 - 8]? = some r ∧ x ∈ r
          ∧ ((x : ℤ) - (binOf c l.band (bandCfg c l.band).stone0 : ℤ)).natAbs < guardBins c l.band)
        ∧ ∃ r x, ring[8 * l.frameSlots - 1]? = some r ∧ x ∈ r
          ∧ ((x : ℤ) - (binOf c l.band (bandCfg c l.band).stone1 : ℤ)).natAbs < guardBins c l.band)

/-- The transitions of the decoder step, row by row (45_decoder R252, R254, R255, R261, R263 to R265, R268). -/
def Obligations.DecoderTransitions : Prop :=
  ∀ (c : Cfg) (s : State),
    (s.session.dstate = .done → decoderStep c s = s)
    ∧ ((s.session.dstate = .awaitingSync ∨ s.session.dstate = .frameComplete) → SyncSeen c s →
        decoderStep c s = { s with session := { s.session with
          dstate := .decoding, prog := 0, hist := if s.latched.fcs then List.replicate 31 0 else s.session.hist } })
    ∧ ((s.session.dstate = .awaitingSync ∨ s.session.dstate = .frameComplete) → ¬SyncSeen c s →
        decoderStep c s = { s with session := { s.session with dstate := .awaitingSync } })
    ∧ (s.session.dstate = .decoding → LagSeen c s →
        decoderStep c s = { s with session := { s.session with
          prog := 0, hist := if s.latched.fcs then List.replicate 31 0 else s.session.hist } })
    ∧ (s.session.dstate = .decoding → ¬LagSeen c s → s.session.prog + 1 ≠ 8 * (s.latched.frameSlots - 4) →
        decoderStep c s = { s with session := { s.session with prog := s.session.prog + 1 } })
    ∧ (s.session.dstate = .decoding → ¬LagSeen c s → s.session.prog + 1 = 8 * (s.latched.frameSlots - 4) →
        attemptResult c s.latched s.session.ring = none →
        decoderStep c s = { s with session := { s.session with
          prog := 0, rejectCnt := s.session.rejectCnt + 1, dstate := .awaitingSync } })
    ∧ (s.session.dstate = .decoding → ¬LagSeen c s → s.session.prog + 1 = 8 * (s.latched.frameSlots - 4) →
        ∀ fr, attemptResult c s.latched s.session.ring = some fr →
          decoderStep c s = accept fr { s with session := { s.session with prog := 0 } }
            ∧ (decoderStep c s).session.prog = 0
            ∧ (decoderStep c s).session.dstate
                = (if 0 ∈ framePayload s.latched.n.toNat fr then .done else .frameComplete))

/-- Accepting a frame (45_decoder R260): the payload up to the NUL is stored while there is room, and the decoder is Done
exactly when a NUL was there. -/
def Obligations.AcceptAppendsThePayload : Prop :=
  ∀ (fr : List Byte) (s t : State) (room : Nat) (stored : List Byte), 2 ≤ s.latched.maxstr.toNat →
    s.session.payLen.toNat + room = s.latched.maxstr.toNat - 1 →
    stored = storedPayload s.latched.n.toNat room fr → t = accept fr s →
    t.session.payLen.toNat = s.session.payLen.toNat + stored.length
      ∧ (∀ i, i < stored.length → byteAt t (payBase + s.session.payLen.toNat + i) = stored.getD i 0)
      ∧ KeepsBytesOutside (payBase + s.session.payLen.toNat) stored.length s t
      ∧ t.session = { s.session with
          frameCnt := s.session.frameCnt + 1
          payLen := t.session.payLen
          payOvf := s.session.payOvf || decide (room < (payloadText s.latched.n.toNat fr).length)
          dstate := if 0 ∈ framePayload s.latched.n.toNat fr then .done else .frameComplete }
      ∧ t = { s with session := t.session, mem := t.mem, irqStatus := s.irqStatus ||| 0b0010 |||
          (if 0 ∈ framePayload s.latched.n.toNat fr then 0b0100 else 0) }

/-- The frame attempt (45_decoder R256 to R258): no result when a slot is empty; else the first combination that decodes, in
the mixed-radix order, of the full product or, beyond MAXCOMB, of each slot's best candidate alone; and a combination gives
a frame exactly when RS decoding gives it and its sync bytes are right. -/
def Obligations.AttemptTakesTheFirstCombinationThatDecodes : Prop :=
  ∀ (c : Cfg) (l : Latched) (ring w lst : List Record),
    w = (List.range l.frameSlots).map (fun j => ring.getD (8 * j + 7) []) →
    lst = (if candidateProduct w ≤ l.maxcomb.toNat then w else w.map (fun r => r.take 1)) →
    (candidateProduct w = 0 → attemptResult c l ring = none)
      ∧ (0 < candidateProduct w → ∀ fr, attemptResult c l ring = some fr ↔
          ∃ m, m < candidateProduct lst
            ∧ tryFrame c l (nibblesToBytes ((radixChoice lst m).map (classify c l.band l.fs.toNat))) = some fr
            ∧ ∀ m', m' < m →
                tryFrame c l (nibblesToBytes ((radixChoice lst m').map (classify c l.band l.fs.toNat))) = none)
      ∧ ∀ cw fr : List Byte, tryFrame c l cw = some fr ↔
          ∃ count, rsDecode cw (l.n.toNat + 1) l.k.toNat = some (count, fr)
            ∧ fr.getD 0 0 = c.sync0 ∧ fr.getD 1 0 = c.sync1

/-- Classification is nearest frequency, the smaller symbol on a tie (45_decoder R259). -/
def Obligations.ClassifyIsNearestFrequency : Prop :=
  ∀ (c : Cfg) (b : Band) (fs x : Nat),
    classify c b fs x < 16
      ∧ ∀ s, s < 16 →
          ((x * fs : ℤ) - (freqOf c b (classify c b fs x) * fftSize c b : ℤ)).natAbs
              ≤ ((x * fs : ℤ) - (freqOf c b s * fftSize c b : ℤ)).natAbs
            ∧ (((x * fs : ℤ) - (freqOf c b (classify c b fs x) * fftSize c b : ℤ)).natAbs
                = ((x * fs : ℤ) - (freqOf c b s * fftSize c b : ℤ)).natAbs → classify c b fs x ≤ s)

/-- In a valid configuration at the band's rate, the bin of a symbol is classified as that symbol (45_decoder R259,
00_scope R6, R17). -/
def Obligations.ClassifyRecoversTheSymbol : Prop :=
  ∀ (c : Cfg) (b : Band) (s : Nat), cfgValid c = true → s < 16 → classify c b (rate b) (symbolBin c b s) = s

/-- The symbols of a frame, low nibble first, pack back into the frame (30_encoding R112, 45_decoder R257); the frames of a
string carry the string, its NUL and zero padding shorter than one piece, and each has the sync bytes and N + 1 + K bytes
(30_encoding R111, R114). -/
def Obligations.FramesCarryTheString : Prop :=
  (∀ fr : List Byte,
    nibblesToBytes (frameSymbols fr) = fr
      ∧ (frameSymbols fr).length = 2 * fr.length
      ∧ ∀ i, i < fr.length →
          (frameSymbols fr).getD (2 * i) 0 = (fr.getD i 0).toNat % 16
            ∧ (frameSymbols fr).getD (2 * i + 1) 0 = (fr.getD i 0).toNat / 16)
  ∧ ∀ (c : Cfg) (n k : Nat) (str : List Byte), 2 ≤ n →
    (∀ fr ∈ framesOfString c n k str, fr.length = n + 1 + k ∧ fr.getD 0 0 = c.sync0 ∧ fr.getD 1 0 = c.sync1
        ∧ fr.drop (n + 1) = rsEncode (fr.take (n + 1)) k)
      ∧ ∃ pad, pad < n - 1
          ∧ ((framesOfString c n k str).map (framePayload n)).flatten = str ++ [0] ++ List.replicate pad 0

/-- A frame sent without noise is accepted: when every slot of the attempt's generation has the sent symbol's bin as its best
candidate, the attempt gives the sent data bytes (45_decoder R256 to R259, R269, 41_reed_solomon R160). -/
def Obligations.CleanFrameIsAccepted : Prop :=
  ∀ (c : Cfg) (l : Latched) (payload : List Byte) (ring : List Record), cfgValid c = true →
    2 ≤ l.n.toNat → l.fs.toNat = rate l.band → payload.length ≤ l.n.toNat - 1 →
    (∀ j, j < l.frameSlots → ∃ others, ring.getD (8 * j + 7) []
        = symbolBin c l.band ((frameSymbols (frameOf c l.n.toNat l.k.toNat payload)).getD j 0) :: others) →
    attemptResult c l ring = some (frameOf c l.n.toNat l.k.toNat payload)

/-! ### Reed–Solomon -/

/-- Multiplication is that of the field of bytes: x times a byte is a shift reduced by GF_POLY, and ⊗ is commutative,
associative, distributes over ⊕, has the unit 1 and one inverse for each nonzero byte (41_reed_solomon R150, R152, R153). -/
def Obligations.FieldLaws : Prop :=
  (∀ a : Byte, gfMul 0x02 a = (a <<< 1) ^^^ (if a.getLsbD 7 then 0x1D else 0))
    ∧ (∀ a b : Byte, gfMul a b = gfMul b a)
    ∧ (∀ a b c : Byte, gfMul (gfMul a b) c = gfMul a (gfMul b c))
    ∧ (∀ a b c : Byte, gfMul a (b ^^^ c) = gfMul a b ^^^ gfMul a c)
    ∧ (∀ a : Byte, gfMul 1 a = a)
    ∧ (∀ a : Byte, a ≠ 0 → gfMul a (gfInv a) = 1 ∧ ∀ b, gfMul a b = 1 → b = gfInv a)
    ∧ (∀ b : Byte, gfMul 0 b ≠ 1)
    ∧ (∀ a b : Byte, b ≠ 0 → gfDiv a b = gfMul a (gfInv b))

/-- A buffer is a codeword exactly when its syndromes are zero (41_reed_solomon R157). -/
def Obligations.CodewordsAreTheZeroSyndromeBuffers : Prop :=
  ∀ (r : List Byte) (d k : Nat), 1 ≤ d → d + k ≤ 255 → r.length = d + k →
    ((∃ data : List Byte, data.length = d ∧ r = data ++ rsEncode data k)
      ↔ ∀ j, 1 ≤ j → j ≤ k → bufEval r (alphaPow j) = 0)

/-- Two different codewords differ in at least K + 1 positions (41_reed_solomon R160). -/
def Obligations.CodewordsAreFarApart : Prop :=
  ∀ (d1 d2 : List Byte) (d k : Nat), 1 ≤ d → d + k ≤ 255 → d1.length = d → d2.length = d → d1 ≠ d2 →
    k + 1 ≤ rsDist (d1 ++ rsEncode d1 k) (d2 ++ rsEncode d2 k)

/-- Whatever the decoder accepts is a codeword within distance K div 2, with that distance as the count; and a codeword is
accepted as it is (41_reed_solomon R160). -/
def Obligations.DecodeAnswersOnlyNearCodewords : Prop :=
  ∀ (r : List Byte) (d k : Nat), r.length = d + k →
    (∀ count c, rsDecode r d k = some (count, c) →
        (∃ data : List Byte, data.length = d ∧ c = data ++ rsEncode data k)
          ∧ rsDist r c = count ∧ count ≤ k / 2 ∧ c.length = d + k)
      ∧ (∀ data : List Byte, data.length = d → r = data ++ rsEncode data k → rsDecode r d k = some (0, r))

/-- Decoding is bounded-distance decoding: the codeword within distance K div 2 if there is one, else Reject
(41_reed_solomon R160). -/
def Obligations.DecodeIsBoundedDistanceDecoding : Prop :=
  ∀ (r : List Byte) (d k : Nat), 1 ≤ d → d + k ≤ 255 → r.length = d + k →
    (∀ data : List Byte, data.length = d → rsDist r (data ++ rsEncode data k) ≤ k / 2 →
        rsDecode r d k = some (rsDist r (data ++ rsEncode data k), data ++ rsEncode data k))
      ∧ ((∀ data : List Byte, data.length = d → k / 2 < rsDist r (data ++ rsEncode data k)) →
        rsDecode r d k = none)

/-- One wrong byte of a codeword with two or more parity bytes is corrected with the count 1 (41_reed_solomon R160 (a)). -/
def Obligations.DecodeCorrectsOneWrongByte : Prop :=
  ∀ (data c : List Byte) (k j : Nat) (e : Byte), 1 ≤ data.length → 2 ≤ k → data.length + k ≤ 255 →
    c = data ++ rsEncode data k → j < data.length + k → e ≠ 0 →
    rsDecode (c.modify j (fun b => b ^^^ e)) data.length k = some (1, c)

/-- RS_ENC writes the parity after the data, clears RESULT, needs no READY, and changes nothing else
(41_reed_solomon R158). -/
def Obligations.RsEncWritesTheParity : Prop :=
  ∀ (s : State) (d k : Nat), 1 ≤ d → d + k ≤ 255 →
    ∃ t, exec (.rsEnc d k) s = .next t
      ∧ cwBytes t (d + k) = cwBytes s d ++ rsEncode (cwBytes s d) k
      ∧ resultWord t = 0
      ∧ KeepsBytesOutside (cwBase + d) k s t
      ∧ t = { s with mem := t.mem, resultCount := t.resultCount, resultReject := t.resultReject }

/-- RS_DEC corrects CW in place and counts, or sets REJECT and leaves CW; it needs no READY and raises nothing
(41_reed_solomon R162). -/
def Obligations.RsDecCorrectsInPlaceOrRejects : Prop :=
  ∀ (s : State) (d k : Nat), 1 ≤ d → d + k ≤ 255 →
    ∃ t, exec (.rsDec d k) s = .next t
      ∧ (∀ count c, rsDecode (cwBytes s (d + k)) d k = some (count, c) →
          cwBytes t (d + k) = c ∧ (resultWord t).toNat = count ∧ KeepsBytesOutside cwBase (d + k) s t)
      ∧ (rsDecode (cwBytes s (d + k)) d k = none → resultWord t = 0x00000100 ∧ ∀ a, byteAt t a = byteAt s a)
      ∧ t = { s with mem := t.mem, resultCount := t.resultCount, resultReject := t.resultReject }

/-! ### Synthesizer -/

/-- SYNTH writes the burst of the symbol into OUT, starting from 0, and nothing else (44_synth R230, R231, R234). The value
v(n) is the computed one, whose error term is free (log 5); that sample 0 is exactly 0 is log 6. -/
def Obligations.SynthWritesTheBurst : Prop :=
  ∀ (s : State) (sym : Nat), s.ready = true → sym < 16 →
    ∃ t, exec (.synth sym) s = .next t
      ∧ burstLen params.cfg s.latched.band ≤ 8192
      ∧ (∀ n, n < burstLen params.cfg s.latched.band → (outSample t n).toInt
          = sat16 (rne (toneValue params.num params.cfg s.latched.band (freqOf params.cfg s.latched.band sym)
              params.cfg.synAmp s.latched.fs.toNat (burstLen params.cfg s.latched.band) sym n)))
      ∧ outSample t 0 = 0
      ∧ KeepsBytesOutside outBase (2 * burstLen params.cfg s.latched.band) s t
      ∧ t = { s with mem := t.mem }

/-- The spectral engine classifies the machine's own bursts (44_synth R233): on a window that holds the burst of a symbol at
the band's rate, the strongest bin of the payload region is classified as that symbol, and a record that is not empty
begins with that bin. That the bound is on the strongest bin is log 18. -/
def Obligations.OwnBurstsAreClassifiedAsTheirSymbols : Prop :=
  ∀ (l : Latched) (sym : Nat) (wb : List Rat), sym < 16 → l.fs.toNat = rate l.band →
    wb = (toneBurst params l sym).map (fun x => ((x.toInt : ℤ) : Rat)) →
    ∃ k, StrongestBin (powerValue params.num (fftSize params.cfg l.band) wb)
        (fun k => (payloadRegion params.cfg l.band).1 ≤ k ∧ k ≤ (payloadRegion params.cfg l.band).2) k
      ∧ classify params.cfg l.band l.fs.toNat k = sym
      ∧ (payloadRecord params l wb ≠ [] → (payloadRecord params l wb).head? = some k)

/-! ### The host's side -/

/-- Which accesses are legal, and that a legal one stays in one region (20_memory R82, R83). -/
def Obligations.LegalAccessesAreAlignedAndMapped : Prop :=
  ∀ (a : Offset) (n : AccessSize),
    (accessLegal a.toNat n = true ↔
      a.toNat % n.bytes = 0
        ∧ ((a.toNat ≤ 0x0057 ∧ n = .four) ∨ (0x0400 ≤ a.toNat ∧ a.toNat ≤ 0x05FF)
            ∨ (0x4000 ≤ a.toNat ∧ a.toNat ≤ 0xBFFF)))
      ∧ (accessLegal a.toNat n = true → ∀ i, i < n.bytes → regionOf (a.toNat + i) = regionOf a.toNat)

/-- An illegal access changes nothing but the error report; a read answers 0 (20_memory R83). The bus answer and its error line
are the model's own (log 9). -/
def Obligations.BusErrorsOnlyReport : Prop :=
  ∀ (s : State) (a : Offset) (n : AccessSize) (v : Word) (rest : List Event), accessLegal a.toNat n = false →
    (s.events = .read a n :: rest →
        step s = .next { report .bus s with events := rest, bus := ⟨0, Config.busErrSignalled⟩ })
      ∧ (s.events = .write a n v :: rest →
        step s = .next { report .bus s with events := rest, bus := ⟨0, Config.busErrSignalled⟩ })

/-- A legal read changes nothing of VPCORE, and reading again answers the same (20_memory R87); a read of a register answers
its fields at the places of 10_state R34 to R55. The answer is held in the model's own field (log 9). -/
def Obligations.ReadsAnswerTheRegistersAndChangeNothing : Prop :=
  (∀ (s t : State) (a : Offset) (n : AccessSize), accessLegal a.toNat n = true → hostRead a n s = .next t →
    t = { s with bus := t.bus } ∧ hostRead a n t = .next t)
  ∧ ∀ s : State,
    ReadAnswers s 0x000 .four 0x56500007
      ∧ ReadAnswers s 0x004 .four (s.settings.ctrl.setWidth 32)
      ∧ ReadAnswers s 0x008 .four (s.settings.fs.setWidth 32)
      ∧ ReadAnswers s 0x00C .four (s.settings.frame.setWidth 32)
      ∧ ReadAnswers s 0x010 .four s.settings.maxcomb
      ∧ ReadAnswers s 0x014 .four s.settings.absRatio
      ∧ ReadAnswers s 0x018 .four s.settings.relRatio
      ∧ ReadAnswers s 0x01C .four 0
      ∧ (∃ v, ReadAnswers s 0x020 .four v
          ∧ v.getLsbD 0 = s.busy ∧ v.getLsbD 1 = s.ready
          ∧ (s.session.dstate = .awaitingSync → v.extractLsb' 2 2 = 0)
          ∧ (s.session.dstate = .decoding → v.extractLsb' 2 2 = 1)
          ∧ (s.session.dstate = .frameComplete → v.extractLsb' 2 2 = 2)
          ∧ (s.session.dstate = .done → v.extractLsb' 2 2 = 3)
          ∧ v.getLsbD 4 = s.session.payOvf ∧ v.extractLsb' 5 3 = 0
          ∧ v.extractLsb' 8 8 = s.errCode ∧ v.extractLsb' 16 16 = 0)
      ∧ ReadAnswers s 0x024 .four (s.errFlags.setWidth 32)
      ∧ ReadAnswers s 0x028 .four (s.irqStatus.setWidth 32)
      ∧ ReadAnswers s 0x02C .four (s.irqEn.setWidth 32)
      ∧ (∃ v, ReadAnswers s 0x030 .four v
          ∧ v.extractLsb' 0 8 = s.resultCount ∧ v.getLsbD 8 = s.resultReject ∧ v.extractLsb' 9 23 = 0)
      ∧ (∃ v, ReadAnswers s 0x034 .four v
          ∧ v.extractLsb' 0 16 = s.session.candBin0 ∧ v.extractLsb' 16 16 = s.session.candBin1)
      ∧ (∃ v, ReadAnswers s 0x038 .four v
          ∧ v.extractLsb' 0 2 = s.session.candCnt ∧ v.extractLsb' 2 2 = s.session.lagCnt ∧ v.extractLsb' 4 28 = 0)
      ∧ ReadAnswers s 0x03C .four s.candIn
      ∧ ReadAnswers s 0x040 .four s.lagIn
      ∧ ReadAnswers s 0x044 .four s.session.chunkCnt
      ∧ ReadAnswers s 0x048 .four s.session.frameCnt
      ∧ ReadAnswers s 0x04C .four s.session.rejectCnt
      ∧ ReadAnswers s 0x050 .four (s.session.payLen.setWidth 32)
      ∧ ReadAnswers s 0x054 .four (BitVec.ofNat 32 s.session.prog)

/-- A write to a buffer stores its bytes little-endian and nothing else, and reads back; every legal read of a buffer, of any
width, answers the little-endian value of the bytes at its offsets, so a value written with one width reads back with
another byte by byte; a 32-bit read of IN_BUF carries IN[2m] in its low half and IN[2m+1] in its high half (20_memory R84
to R86). While BUSY = 1 this holds for PAYLOAD and IN_BUF (70_reset R351, R352). The answer is held in the model's own
field (log 9). -/
def Obligations.BufferAccessesAreLittleEndian : Prop :=
  (∀ (s : State) (a : Offset) (n : AccessSize) (v : Word), s.busy = false → accessLegal a.toNat n = true →
    (regionOf a.toNat = .cwBuf ∨ regionOf a.toNat = .inBuf ∨ regionOf a.toNat = .outBuf) →
    ∃ t u, hostWrite a n v s = .next t
      ∧ (∀ i, i < n.bytes → byteAt t (a.toNat + i) = v.extractLsb' (8 * i) 8)
      ∧ KeepsBytesOutside a.toNat n.bytes s t
      ∧ t = { s with mem := t.mem, bus := t.bus }
      ∧ hostRead a n t = .next u
      ∧ u.bus.data.toNat = v.toNat % 2 ^ (8 * n.bytes))
    ∧ (∀ (s : State) (a : Offset) (n : AccessSize), accessLegal a.toNat n = true →
        (regionOf a.toNat = .payload ∨ regionOf a.toNat = .inBuf
          ∨ (s.busy = false ∧ (regionOf a.toNat = .cwBuf ∨ regionOf a.toNat = .outBuf))) →
        ∃ v, ReadAnswers s a n v ∧ v.toNat < 2 ^ (8 * n.bytes)
          ∧ ∀ i, i < n.bytes → v.extractLsb' (8 * i) 8 = byteAt s (a.toNat + i))
    ∧ ∀ (s : State) (m : Nat), m < 4096 →
      ∃ t, hostRead (BitVec.ofNat 16 (0x4000 + 4 * m)) .four s = .next t
        ∧ t.bus.data = inSample s (2 * m + 1) ++ inSample s (2 * m)

/-- The writable registers hold what is written, in their implemented bits, and nothing else changes (10_state R35 to R40,
R45, R49, R50), whatever BUSY is, but for CAND_IN and LAG_IN, which need BUSY = 0 (70_reset R352); a write to a
read-only register or to PAYLOAD is ignored without error (20_memory R84, R87). -/
def Obligations.RegisterWritesStoreOrAreIgnored : Prop :=
  (∀ (s : State) (v mask : Word) (a : Offset), ((a = 0x03C ∨ a = 0x040) → s.busy = false) →
    (a, mask) ∈ ([(0x004, 0x0000000F), (0x008, 0x0001FFFF), (0x00C, 0x00FFFFFF), (0x010, 0xFFFFFFFF), (0x014, 0xFFFFFFFF),
      (0x018, 0xFFFFFFFF), (0x02C, 0x0000000F), (0x03C, 0xFFFFFFFF), (0x040, 0xFFFFFFFF)] : List (Offset × Word)) →
    ∃ t u, hostWrite a .four v s = .next t
      ∧ hostRead a .four t = .next u ∧ u.bus.data = v &&& mask
      ∧ (∀ r, regAt a.toNat ≠ some r → readReg r t = readReg r s)
      ∧ t.mem = s.mem ∧ t.session = s.session ∧ KeepsLatch s t ∧ t.pend = s.pend ∧ t.events = s.events)
  ∧ ∀ (s : State) (v : Word) (a : Offset) (n : AccessSize), accessLegal a.toNat n = true →
    (a ∈ ([0x000, 0x020, 0x030, 0x034, 0x038, 0x044, 0x048, 0x04C, 0x050, 0x054] : List Offset)
      ∨ (0x0500 ≤ a.toNat ∧ a.toNat ≤ 0x05FF)) →
    hostWrite a n v s = .next { s with bus := ⟨0, false⟩ }

/-- W1C writes clear exactly the bits written as 1; with no error flag left, ERR_CODE is 0 (10_state R43, R44,
60_exceptions R313); the interrupt output is asserted exactly while some pending bit is enabled (60_exceptions R310). -/
def Obligations.W1cWritesAcknowledgeErrorsAndInterrupts : Prop :=
  ∀ (s : State) (v : Word),
    (irqLevel s = true ↔ ∃ j, j < 4 ∧ s.irqStatus.getLsbD j = true ∧ s.irqEn.getLsbD j = true)
    ∧ (∃ t, hostWrite 0x024 .four v s = .next t
      ∧ (∀ j, j < 7 → t.errFlags.getLsbD j = (s.errFlags.getLsbD j && !v.getLsbD j))
      ∧ t.errCode = (if t.errFlags = 0 then 0 else s.errCode)
      ∧ t = { s with errFlags := t.errFlags, errCode := t.errCode, bus := ⟨0, false⟩ })
    ∧ ∃ t, hostWrite 0x028 .four v s = .next t
      ∧ (∀ j, j < 4 → t.irqStatus.getLsbD j = (s.irqStatus.getLsbD j && !v.getLsbD j))
      ∧ t = { s with irqStatus := t.irqStatus, bus := ⟨0, false⟩ }

/-! ### The whole machine -/

/-- The machine faults exactly on the hazards of a pending command, and refuses nothing (70_reset R352; 93 I3). That only a
legal access is such a hazard is log 7. -/
def Obligations.OnlyBusyHazardsStopTheMachine : Prop :=
  ∀ s : State,
    ((∃ f, step s = .fault f) ↔ s.busy = true ∧ ∃ e rest, s.events = e :: rest ∧ HazardAccess e)
      ∧ (∀ r, step s ≠ .refused r)

/-- Every step keeps the memory's canonical form. -/
def Obligations.StepKeepsMemoryCanonical : Prop :=
  ∀ s t : State, s.mem.wf = true → step s = .next t → t.mem.wf = true

/-- Every step keeps the sizes and bounds of the session (10_state R61 to R66, 40_control R133, 45_decoder R255, R260). -/
def Obligations.StepKeepsTheSessionInvariant : Prop :=
  ∀ s t : State, SessionInv params.cfg s → step s = .next t → SessionInv params.cfg t

/-- Every step keeps ERR_CODE zero exactly while no error flag is set (10_state R43, 60_exceptions R305). -/
def Obligations.StepKeepsTheErrorRecordConsistent : Prop :=
  ∀ s t : State, ErrorsConsistent s → step s = .next t → ErrorsConsistent t

/-- The invariants hold after reset. -/
def Obligations.ResetMeetsTheInvariants : Prop :=
  State.reset.mem.wf = true ∧ SessionInv params.cfg State.reset ∧ ErrorsConsistent State.reset

/-- The reset input gives every register its reset value, from any state, and discards a pending command
(70_reset R340, R341). -/
def Obligations.ResetInputGivesTheResetValues : Prop :=
  ∀ (s : State) (rest : List Event), s.events = .reset :: rest →
    ∃ t, step s = .next t ∧ t.events = rest ∧ t.busy = false ∧ t.ready = false
      ∧ readReg .id t = 0x56500007 ∧ readReg .ctrl t = 0 ∧ readReg .fs t = 0x00003E80 ∧ readReg .frame t = 0x00C8080B
      ∧ readReg .maxcomb t = 0x00000100 ∧ readReg .absRatio t = 0x000A0000 ∧ readReg .relRatio t = 0x00008000
      ∧ (∀ r ∈ [Reg.cmd, .status, .errFlags, .irqStatus, .irqEn, .result, .cand, .candCnt, .candIn, .lagIn, .chunkCnt,
          .frameCnt, .rejectCnt, .payLen, .decProg], readReg r t = 0)
      ∧ irqLevel t = false
      ∧ t.h = List.replicate 32 0 ∧ t.session.hist = List.replicate 31 0
      ∧ (∀ i, t.session.wb.getD i 0 = 0) ∧ (∀ i, t.session.ring.getD i [] = []) ∧ (∀ i, t.session.lring.getD i [] = [])

/-- Done is left only by INIT, CLEAR or reset; until then the payload is frozen (45_decoder R265). -/
def Obligations.DoneIsLeftOnlyByInitClearOrReset : Prop :=
  ∀ s t : State, s.session.dstate = .done → step s = .next t →
    (t.session.dstate = .done ∧ t.session.payLen = s.session.payLen
        ∧ ∀ i, i < 256 → byteAt t (payBase + i) = byteAt s (payBase + i))
      ∨ (∃ rest, s.events = .reset :: rest)
      ∨ (s.busy = true ∧ CoreIsNext s ∧ (decode s.pend = .ok .init ∨ decode s.pend = .ok .clear))

/-- PAY changes only at a core step of INIT, CLEAR, ANALYZE, CHUNK or CAND_PUSH, or at reset (20_memory R84). -/
def Obligations.OnlyTheDecoderAndRestartsWritePay : Prop :=
  ∀ s t : State, step s = .next t →
    (∀ i, i < 256 → byteAt t (payBase + i) = byteAt s (payBase + i))
      ∨ (∃ rest, s.events = .reset :: rest)
      ∨ (s.busy = true ∧ CoreIsNext s
          ∧ (decode s.pend = .ok .init ∨ decode s.pend = .ok .clear ∨ decode s.pend = .ok .analyze
              ∨ decode s.pend = .ok .chunk ∨ ∃ cnt lcnt, decode s.pend = .ok (.candPush cnt lcnt)))

/-- READY, L and H change only at a core step of INIT or at reset (10_state R57, R59, R61, 42_fir R181, 60_exceptions R313). -/
def Obligations.OnlyInitAndResetChangeTheLatch : Prop :=
  ∀ s t : State, step s = .next t →
    KeepsLatch s t ∨ (∃ rest, s.events = .reset :: rest)
      ∨ (s.busy = true ∧ CoreIsNext s ∧ decode s.pend = .ok .init)

end Statements
end

