-- ==== Sys2Proof/Laws/State.lean ====
section
/-! SUPPORT. One lemma per field per update of the state, each true by rfl, so that no proof unfolds an update. -/

namespace Sys2Proof.Machine

/-! `report` -/
@[simp] theorem report_settings (c : ErrCode) (s : State) : (report c s).settings = s.settings := rfl
@[simp] theorem report_latched (c : ErrCode) (s : State) : (report c s).latched = s.latched := rfl
@[simp] theorem report_ready (c : ErrCode) (s : State) : (report c s).ready = s.ready := rfl
@[simp] theorem report_busy (c : ErrCode) (s : State) : (report c s).busy = s.busy := rfl
@[simp] theorem report_pend (c : ErrCode) (s : State) : (report c s).pend = s.pend := rfl
@[simp] theorem report_errFlags (c : ErrCode) (s : State) : (report c s).errFlags = s.errFlags ||| (1#7 <<< (c.code - 1)) := rfl
@[simp] theorem report_errCode (c : ErrCode) (s : State) : (report c s).errCode = (if s.errFlags = 0 then BitVec.ofNat 8 c.code else s.errCode) := rfl
@[simp] theorem report_irqStatus (c : ErrCode) (s : State) : (report c s).irqStatus = s.irqStatus ||| 0b1000 := rfl
@[simp] theorem report_irqEn (c : ErrCode) (s : State) : (report c s).irqEn = s.irqEn := rfl
@[simp] theorem report_resultCount (c : ErrCode) (s : State) : (report c s).resultCount = s.resultCount := rfl
@[simp] theorem report_resultReject (c : ErrCode) (s : State) : (report c s).resultReject = s.resultReject := rfl
@[simp] theorem report_candIn (c : ErrCode) (s : State) : (report c s).candIn = s.candIn := rfl
@[simp] theorem report_lagIn (c : ErrCode) (s : State) : (report c s).lagIn = s.lagIn := rfl
@[simp] theorem report_h (c : ErrCode) (s : State) : (report c s).h = s.h := rfl
@[simp] theorem report_session (c : ErrCode) (s : State) : (report c s).session = s.session := rfl
@[simp] theorem report_mem (c : ErrCode) (s : State) : (report c s).mem = s.mem := rfl
@[simp] theorem report_events (c : ErrCode) (s : State) : (report c s).events = s.events := rfl
@[simp] theorem report_bus (c : ErrCode) (s : State) : (report c s).bus = s.bus := rfl
@[simp] theorem report_epoch (c : ErrCode) (s : State) : (report c s).epoch = s.epoch := rfl

/-! `complete` -/
@[simp] theorem complete_settings (s : State) : (complete s).settings = s.settings := rfl
@[simp] theorem complete_latched (s : State) : (complete s).latched = s.latched := rfl
@[simp] theorem complete_ready (s : State) : (complete s).ready = s.ready := rfl
@[simp] theorem complete_busy (s : State) : (complete s).busy = false := rfl
@[simp] theorem complete_pend (s : State) : (complete s).pend = s.pend := rfl
@[simp] theorem complete_errFlags (s : State) : (complete s).errFlags = s.errFlags := rfl
@[simp] theorem complete_errCode (s : State) : (complete s).errCode = s.errCode := rfl
@[simp] theorem complete_irqStatus (s : State) : (complete s).irqStatus = s.irqStatus ||| 0b0001 := rfl
@[simp] theorem complete_irqEn (s : State) : (complete s).irqEn = s.irqEn := rfl
@[simp] theorem complete_resultCount (s : State) : (complete s).resultCount = s.resultCount := rfl
@[simp] theorem complete_resultReject (s : State) : (complete s).resultReject = s.resultReject := rfl
@[simp] theorem complete_candIn (s : State) : (complete s).candIn = s.candIn := rfl
@[simp] theorem complete_lagIn (s : State) : (complete s).lagIn = s.lagIn := rfl
@[simp] theorem complete_h (s : State) : (complete s).h = s.h := rfl
@[simp] theorem complete_session (s : State) : (complete s).session = s.session := rfl
@[simp] theorem complete_mem (s : State) : (complete s).mem = s.mem := rfl
@[simp] theorem complete_events (s : State) : (complete s).events = s.events := rfl
@[simp] theorem complete_bus (s : State) : (complete s).bus = s.bus := rfl
@[simp] theorem complete_epoch (s : State) : (complete s).epoch = s.epoch := rfl

/-! `ackErrors` -/
@[simp] theorem ackErrors_settings (v : Word) (s : State) : (ackErrors v s).settings = s.settings := rfl
@[simp] theorem ackErrors_latched (v : Word) (s : State) : (ackErrors v s).latched = s.latched := rfl
@[simp] theorem ackErrors_ready (v : Word) (s : State) : (ackErrors v s).ready = s.ready := rfl
@[simp] theorem ackErrors_busy (v : Word) (s : State) : (ackErrors v s).busy = s.busy := rfl
@[simp] theorem ackErrors_pend (v : Word) (s : State) : (ackErrors v s).pend = s.pend := rfl
@[simp] theorem ackErrors_errFlags (v : Word) (s : State) : (ackErrors v s).errFlags = s.errFlags &&& ~~~(v.setWidth 7) := rfl
@[simp] theorem ackErrors_errCode (v : Word) (s : State) : (ackErrors v s).errCode = (if s.errFlags &&& ~~~(v.setWidth 7) = 0 then 0 else s.errCode) := rfl
@[simp] theorem ackErrors_irqStatus (v : Word) (s : State) : (ackErrors v s).irqStatus = s.irqStatus := rfl
@[simp] theorem ackErrors_irqEn (v : Word) (s : State) : (ackErrors v s).irqEn = s.irqEn := rfl
@[simp] theorem ackErrors_resultCount (v : Word) (s : State) : (ackErrors v s).resultCount = s.resultCount := rfl
@[simp] theorem ackErrors_resultReject (v : Word) (s : State) : (ackErrors v s).resultReject = s.resultReject := rfl
@[simp] theorem ackErrors_candIn (v : Word) (s : State) : (ackErrors v s).candIn = s.candIn := rfl
@[simp] theorem ackErrors_lagIn (v : Word) (s : State) : (ackErrors v s).lagIn = s.lagIn := rfl
@[simp] theorem ackErrors_h (v : Word) (s : State) : (ackErrors v s).h = s.h := rfl
@[simp] theorem ackErrors_session (v : Word) (s : State) : (ackErrors v s).session = s.session := rfl
@[simp] theorem ackErrors_mem (v : Word) (s : State) : (ackErrors v s).mem = s.mem := rfl
@[simp] theorem ackErrors_events (v : Word) (s : State) : (ackErrors v s).events = s.events := rfl
@[simp] theorem ackErrors_bus (v : Word) (s : State) : (ackErrors v s).bus = s.bus := rfl
@[simp] theorem ackErrors_epoch (v : Word) (s : State) : (ackErrors v s).epoch = s.epoch := rfl

/-! `ackIrq` -/
@[simp] theorem ackIrq_settings (v : Word) (s : State) : (ackIrq v s).settings = s.settings := rfl
@[simp] theorem ackIrq_latched (v : Word) (s : State) : (ackIrq v s).latched = s.latched := rfl
@[simp] theorem ackIrq_ready (v : Word) (s : State) : (ackIrq v s).ready = s.ready := rfl
@[simp] theorem ackIrq_busy (v : Word) (s : State) : (ackIrq v s).busy = s.busy := rfl
@[simp] theorem ackIrq_pend (v : Word) (s : State) : (ackIrq v s).pend = s.pend := rfl
@[simp] theorem ackIrq_errFlags (v : Word) (s : State) : (ackIrq v s).errFlags = s.errFlags := rfl
@[simp] theorem ackIrq_errCode (v : Word) (s : State) : (ackIrq v s).errCode = s.errCode := rfl
@[simp] theorem ackIrq_irqStatus (v : Word) (s : State) : (ackIrq v s).irqStatus = s.irqStatus &&& ~~~(v.setWidth 4) := rfl
@[simp] theorem ackIrq_irqEn (v : Word) (s : State) : (ackIrq v s).irqEn = s.irqEn := rfl
@[simp] theorem ackIrq_resultCount (v : Word) (s : State) : (ackIrq v s).resultCount = s.resultCount := rfl
@[simp] theorem ackIrq_resultReject (v : Word) (s : State) : (ackIrq v s).resultReject = s.resultReject := rfl
@[simp] theorem ackIrq_candIn (v : Word) (s : State) : (ackIrq v s).candIn = s.candIn := rfl
@[simp] theorem ackIrq_lagIn (v : Word) (s : State) : (ackIrq v s).lagIn = s.lagIn := rfl
@[simp] theorem ackIrq_h (v : Word) (s : State) : (ackIrq v s).h = s.h := rfl
@[simp] theorem ackIrq_session (v : Word) (s : State) : (ackIrq v s).session = s.session := rfl
@[simp] theorem ackIrq_mem (v : Word) (s : State) : (ackIrq v s).mem = s.mem := rfl
@[simp] theorem ackIrq_events (v : Word) (s : State) : (ackIrq v s).events = s.events := rfl
@[simp] theorem ackIrq_bus (v : Word) (s : State) : (ackIrq v s).bus = s.bus := rfl
@[simp] theorem ackIrq_epoch (v : Word) (s : State) : (ackIrq v s).epoch = s.epoch := rfl

/-! `storeBytes` -/
@[simp] theorem storeBytes_settings (base : Nat) (bs : List Byte) (s : State) : (storeBytes base bs s).settings = s.settings := rfl
@[simp] theorem storeBytes_latched (base : Nat) (bs : List Byte) (s : State) : (storeBytes base bs s).latched = s.latched := rfl
@[simp] theorem storeBytes_ready (base : Nat) (bs : List Byte) (s : State) : (storeBytes base bs s).ready = s.ready := rfl
@[simp] theorem storeBytes_busy (base : Nat) (bs : List Byte) (s : State) : (storeBytes base bs s).busy = s.busy := rfl
@[simp] theorem storeBytes_pend (base : Nat) (bs : List Byte) (s : State) : (storeBytes base bs s).pend = s.pend := rfl
@[simp] theorem storeBytes_errFlags (base : Nat) (bs : List Byte) (s : State) : (storeBytes base bs s).errFlags = s.errFlags := rfl
@[simp] theorem storeBytes_errCode (base : Nat) (bs : List Byte) (s : State) : (storeBytes base bs s).errCode = s.errCode := rfl
@[simp] theorem storeBytes_irqStatus (base : Nat) (bs : List Byte) (s : State) : (storeBytes base bs s).irqStatus = s.irqStatus := rfl
@[simp] theorem storeBytes_irqEn (base : Nat) (bs : List Byte) (s : State) : (storeBytes base bs s).irqEn = s.irqEn := rfl
@[simp] theorem storeBytes_resultCount (base : Nat) (bs : List Byte) (s : State) : (storeBytes base bs s).resultCount = s.resultCount := rfl
@[simp] theorem storeBytes_resultReject (base : Nat) (bs : List Byte) (s : State) : (storeBytes base bs s).resultReject = s.resultReject := rfl
@[simp] theorem storeBytes_candIn (base : Nat) (bs : List Byte) (s : State) : (storeBytes base bs s).candIn = s.candIn := rfl
@[simp] theorem storeBytes_lagIn (base : Nat) (bs : List Byte) (s : State) : (storeBytes base bs s).lagIn = s.lagIn := rfl
@[simp] theorem storeBytes_h (base : Nat) (bs : List Byte) (s : State) : (storeBytes base bs s).h = s.h := rfl
@[simp] theorem storeBytes_session (base : Nat) (bs : List Byte) (s : State) : (storeBytes base bs s).session = s.session := rfl
@[simp] theorem storeBytes_mem (base : Nat) (bs : List Byte) (s : State) : (storeBytes base bs s).mem = s.mem.writeBytes base bs := rfl
@[simp] theorem storeBytes_events (base : Nat) (bs : List Byte) (s : State) : (storeBytes base bs s).events = s.events := rfl
@[simp] theorem storeBytes_bus (base : Nat) (bs : List Byte) (s : State) : (storeBytes base bs s).bus = s.bus := rfl
@[simp] theorem storeBytes_epoch (base : Nat) (bs : List Byte) (s : State) : (storeBytes base bs s).epoch = s.epoch := rfl

/-! `setFrameOk` -/
@[simp] theorem setFrameOk_settings (s : State) : (setFrameOk s).settings = s.settings := rfl
@[simp] theorem setFrameOk_latched (s : State) : (setFrameOk s).latched = s.latched := rfl
@[simp] theorem setFrameOk_ready (s : State) : (setFrameOk s).ready = s.ready := rfl
@[simp] theorem setFrameOk_busy (s : State) : (setFrameOk s).busy = s.busy := rfl
@[simp] theorem setFrameOk_pend (s : State) : (setFrameOk s).pend = s.pend := rfl
@[simp] theorem setFrameOk_errFlags (s : State) : (setFrameOk s).errFlags = s.errFlags := rfl
@[simp] theorem setFrameOk_errCode (s : State) : (setFrameOk s).errCode = s.errCode := rfl
@[simp] theorem setFrameOk_irqStatus (s : State) : (setFrameOk s).irqStatus = s.irqStatus ||| 0b0010 := rfl
@[simp] theorem setFrameOk_irqEn (s : State) : (setFrameOk s).irqEn = s.irqEn := rfl
@[simp] theorem setFrameOk_resultCount (s : State) : (setFrameOk s).resultCount = s.resultCount := rfl
@[simp] theorem setFrameOk_resultReject (s : State) : (setFrameOk s).resultReject = s.resultReject := rfl
@[simp] theorem setFrameOk_candIn (s : State) : (setFrameOk s).candIn = s.candIn := rfl
@[simp] theorem setFrameOk_lagIn (s : State) : (setFrameOk s).lagIn = s.lagIn := rfl
@[simp] theorem setFrameOk_h (s : State) : (setFrameOk s).h = s.h := rfl
@[simp] theorem setFrameOk_session (s : State) : (setFrameOk s).session = s.session := rfl
@[simp] theorem setFrameOk_mem (s : State) : (setFrameOk s).mem = s.mem := rfl
@[simp] theorem setFrameOk_events (s : State) : (setFrameOk s).events = s.events := rfl
@[simp] theorem setFrameOk_bus (s : State) : (setFrameOk s).bus = s.bus := rfl
@[simp] theorem setFrameOk_epoch (s : State) : (setFrameOk s).epoch = s.epoch := rfl

/-! `setDoneIrq` -/
@[simp] theorem setDoneIrq_settings (s : State) : (setDoneIrq s).settings = s.settings := rfl
@[simp] theorem setDoneIrq_latched (s : State) : (setDoneIrq s).latched = s.latched := rfl
@[simp] theorem setDoneIrq_ready (s : State) : (setDoneIrq s).ready = s.ready := rfl
@[simp] theorem setDoneIrq_busy (s : State) : (setDoneIrq s).busy = s.busy := rfl
@[simp] theorem setDoneIrq_pend (s : State) : (setDoneIrq s).pend = s.pend := rfl
@[simp] theorem setDoneIrq_errFlags (s : State) : (setDoneIrq s).errFlags = s.errFlags := rfl
@[simp] theorem setDoneIrq_errCode (s : State) : (setDoneIrq s).errCode = s.errCode := rfl
@[simp] theorem setDoneIrq_irqStatus (s : State) : (setDoneIrq s).irqStatus = s.irqStatus ||| 0b0100 := rfl
@[simp] theorem setDoneIrq_irqEn (s : State) : (setDoneIrq s).irqEn = s.irqEn := rfl
@[simp] theorem setDoneIrq_resultCount (s : State) : (setDoneIrq s).resultCount = s.resultCount := rfl
@[simp] theorem setDoneIrq_resultReject (s : State) : (setDoneIrq s).resultReject = s.resultReject := rfl
@[simp] theorem setDoneIrq_candIn (s : State) : (setDoneIrq s).candIn = s.candIn := rfl
@[simp] theorem setDoneIrq_lagIn (s : State) : (setDoneIrq s).lagIn = s.lagIn := rfl
@[simp] theorem setDoneIrq_h (s : State) : (setDoneIrq s).h = s.h := rfl
@[simp] theorem setDoneIrq_session (s : State) : (setDoneIrq s).session = s.session := rfl
@[simp] theorem setDoneIrq_mem (s : State) : (setDoneIrq s).mem = s.mem := rfl
@[simp] theorem setDoneIrq_events (s : State) : (setDoneIrq s).events = s.events := rfl
@[simp] theorem setDoneIrq_bus (s : State) : (setDoneIrq s).bus = s.bus := rfl
@[simp] theorem setDoneIrq_epoch (s : State) : (setDoneIrq s).epoch = s.epoch := rfl

/-! `setResult` -/
@[simp] theorem setResult_settings (n : Nat) (b : Bool) (s : State) : (setResult n b s).settings = s.settings := rfl
@[simp] theorem setResult_latched (n : Nat) (b : Bool) (s : State) : (setResult n b s).latched = s.latched := rfl
@[simp] theorem setResult_ready (n : Nat) (b : Bool) (s : State) : (setResult n b s).ready = s.ready := rfl
@[simp] theorem setResult_busy (n : Nat) (b : Bool) (s : State) : (setResult n b s).busy = s.busy := rfl
@[simp] theorem setResult_pend (n : Nat) (b : Bool) (s : State) : (setResult n b s).pend = s.pend := rfl
@[simp] theorem setResult_errFlags (n : Nat) (b : Bool) (s : State) : (setResult n b s).errFlags = s.errFlags := rfl
@[simp] theorem setResult_errCode (n : Nat) (b : Bool) (s : State) : (setResult n b s).errCode = s.errCode := rfl
@[simp] theorem setResult_irqStatus (n : Nat) (b : Bool) (s : State) : (setResult n b s).irqStatus = s.irqStatus := rfl
@[simp] theorem setResult_irqEn (n : Nat) (b : Bool) (s : State) : (setResult n b s).irqEn = s.irqEn := rfl
@[simp] theorem setResult_resultCount (n : Nat) (b : Bool) (s : State) : (setResult n b s).resultCount = BitVec.ofNat 8 n := rfl
@[simp] theorem setResult_resultReject (n : Nat) (b : Bool) (s : State) : (setResult n b s).resultReject = b := rfl
@[simp] theorem setResult_candIn (n : Nat) (b : Bool) (s : State) : (setResult n b s).candIn = s.candIn := rfl
@[simp] theorem setResult_lagIn (n : Nat) (b : Bool) (s : State) : (setResult n b s).lagIn = s.lagIn := rfl
@[simp] theorem setResult_h (n : Nat) (b : Bool) (s : State) : (setResult n b s).h = s.h := rfl
@[simp] theorem setResult_session (n : Nat) (b : Bool) (s : State) : (setResult n b s).session = s.session := rfl
@[simp] theorem setResult_mem (n : Nat) (b : Bool) (s : State) : (setResult n b s).mem = s.mem := rfl
@[simp] theorem setResult_events (n : Nat) (b : Bool) (s : State) : (setResult n b s).events = s.events := rfl
@[simp] theorem setResult_bus (n : Nat) (b : Bool) (s : State) : (setResult n b s).bus = s.bus := rfl
@[simp] theorem setResult_epoch (n : Nat) (b : Bool) (s : State) : (setResult n b s).epoch = s.epoch := rfl

/-! `answer` -/
@[simp] theorem answer_settings (d : Word) (e : Bool) (s : State) : (answer d e s).settings = s.settings := rfl
@[simp] theorem answer_latched (d : Word) (e : Bool) (s : State) : (answer d e s).latched = s.latched := rfl
@[simp] theorem answer_ready (d : Word) (e : Bool) (s : State) : (answer d e s).ready = s.ready := rfl
@[simp] theorem answer_busy (d : Word) (e : Bool) (s : State) : (answer d e s).busy = s.busy := rfl
@[simp] theorem answer_pend (d : Word) (e : Bool) (s : State) : (answer d e s).pend = s.pend := rfl
@[simp] theorem answer_errFlags (d : Word) (e : Bool) (s : State) : (answer d e s).errFlags = s.errFlags := rfl
@[simp] theorem answer_errCode (d : Word) (e : Bool) (s : State) : (answer d e s).errCode = s.errCode := rfl
@[simp] theorem answer_irqStatus (d : Word) (e : Bool) (s : State) : (answer d e s).irqStatus = s.irqStatus := rfl
@[simp] theorem answer_irqEn (d : Word) (e : Bool) (s : State) : (answer d e s).irqEn = s.irqEn := rfl
@[simp] theorem answer_resultCount (d : Word) (e : Bool) (s : State) : (answer d e s).resultCount = s.resultCount := rfl
@[simp] theorem answer_resultReject (d : Word) (e : Bool) (s : State) : (answer d e s).resultReject = s.resultReject := rfl
@[simp] theorem answer_candIn (d : Word) (e : Bool) (s : State) : (answer d e s).candIn = s.candIn := rfl
@[simp] theorem answer_lagIn (d : Word) (e : Bool) (s : State) : (answer d e s).lagIn = s.lagIn := rfl
@[simp] theorem answer_h (d : Word) (e : Bool) (s : State) : (answer d e s).h = s.h := rfl
@[simp] theorem answer_session (d : Word) (e : Bool) (s : State) : (answer d e s).session = s.session := rfl
@[simp] theorem answer_mem (d : Word) (e : Bool) (s : State) : (answer d e s).mem = s.mem := rfl
@[simp] theorem answer_events (d : Word) (e : Bool) (s : State) : (answer d e s).events = s.events := rfl
@[simp] theorem answer_bus (d : Word) (e : Bool) (s : State) : (answer d e s).bus = ⟨d, e⟩ := rfl
@[simp] theorem answer_epoch (d : Word) (e : Bool) (s : State) : (answer d e s).epoch = s.epoch := rfl

/-! `acquire` -/
@[simp] theorem acquire_settings (s : State) : (acquire s).settings = s.settings := rfl
@[simp] theorem acquire_latched (s : State) : (acquire s).latched = s.latched := rfl
@[simp] theorem acquire_ready (s : State) : (acquire s).ready = s.ready := rfl
@[simp] theorem acquire_busy (s : State) : (acquire s).busy = s.busy := rfl
@[simp] theorem acquire_pend (s : State) : (acquire s).pend = s.pend := rfl
@[simp] theorem acquire_errFlags (s : State) : (acquire s).errFlags = s.errFlags := rfl
@[simp] theorem acquire_errCode (s : State) : (acquire s).errCode = s.errCode := rfl
@[simp] theorem acquire_irqStatus (s : State) : (acquire s).irqStatus = s.irqStatus := rfl
@[simp] theorem acquire_irqEn (s : State) : (acquire s).irqEn = s.irqEn := rfl
@[simp] theorem acquire_resultCount (s : State) : (acquire s).resultCount = s.resultCount := rfl
@[simp] theorem acquire_resultReject (s : State) : (acquire s).resultReject = s.resultReject := rfl
@[simp] theorem acquire_candIn (s : State) : (acquire s).candIn = s.candIn := rfl
@[simp] theorem acquire_lagIn (s : State) : (acquire s).lagIn = s.lagIn := rfl
@[simp] theorem acquire_h (s : State) : (acquire s).h = s.h := rfl
@[simp] theorem acquire_session_hist (s : State) : (acquire s).session.hist = (if s.latched.fcs then List.replicate 31 0 else s.session.hist) := rfl
@[simp] theorem acquire_session_wb (s : State) : (acquire s).session.wb = s.session.wb := rfl
@[simp] theorem acquire_session_ring (s : State) : (acquire s).session.ring = s.session.ring := rfl
@[simp] theorem acquire_session_lring (s : State) : (acquire s).session.lring = s.session.lring := rfl
@[simp] theorem acquire_session_dstate (s : State) : (acquire s).session.dstate = .decoding := rfl
@[simp] theorem acquire_session_prog (s : State) : (acquire s).session.prog = 0 := rfl
@[simp] theorem acquire_session_payLen (s : State) : (acquire s).session.payLen = s.session.payLen := rfl
@[simp] theorem acquire_session_payOvf (s : State) : (acquire s).session.payOvf = s.session.payOvf := rfl
@[simp] theorem acquire_session_chunkCnt (s : State) : (acquire s).session.chunkCnt = s.session.chunkCnt := rfl
@[simp] theorem acquire_session_frameCnt (s : State) : (acquire s).session.frameCnt = s.session.frameCnt := rfl
@[simp] theorem acquire_session_rejectCnt (s : State) : (acquire s).session.rejectCnt = s.session.rejectCnt := rfl
@[simp] theorem acquire_session_candBin0 (s : State) : (acquire s).session.candBin0 = s.session.candBin0 := rfl
@[simp] theorem acquire_session_candBin1 (s : State) : (acquire s).session.candBin1 = s.session.candBin1 := rfl
@[simp] theorem acquire_session_candCnt (s : State) : (acquire s).session.candCnt = s.session.candCnt := rfl
@[simp] theorem acquire_session_lagCnt (s : State) : (acquire s).session.lagCnt = s.session.lagCnt := rfl
@[simp] theorem acquire_mem (s : State) : (acquire s).mem = s.mem := rfl
@[simp] theorem acquire_events (s : State) : (acquire s).events = s.events := rfl
@[simp] theorem acquire_bus (s : State) : (acquire s).bus = s.bus := rfl
@[simp] theorem acquire_epoch (s : State) : (acquire s).epoch = s.epoch := rfl

/-! `reject` -/
@[simp] theorem reject_settings (s : State) : (reject s).settings = s.settings := rfl
@[simp] theorem reject_latched (s : State) : (reject s).latched = s.latched := rfl
@[simp] theorem reject_ready (s : State) : (reject s).ready = s.ready := rfl
@[simp] theorem reject_busy (s : State) : (reject s).busy = s.busy := rfl
@[simp] theorem reject_pend (s : State) : (reject s).pend = s.pend := rfl
@[simp] theorem reject_errFlags (s : State) : (reject s).errFlags = s.errFlags := rfl
@[simp] theorem reject_errCode (s : State) : (reject s).errCode = s.errCode := rfl
@[simp] theorem reject_irqStatus (s : State) : (reject s).irqStatus = s.irqStatus := rfl
@[simp] theorem reject_irqEn (s : State) : (reject s).irqEn = s.irqEn := rfl
@[simp] theorem reject_resultCount (s : State) : (reject s).resultCount = s.resultCount := rfl
@[simp] theorem reject_resultReject (s : State) : (reject s).resultReject = s.resultReject := rfl
@[simp] theorem reject_candIn (s : State) : (reject s).candIn = s.candIn := rfl
@[simp] theorem reject_lagIn (s : State) : (reject s).lagIn = s.lagIn := rfl
@[simp] theorem reject_h (s : State) : (reject s).h = s.h := rfl
@[simp] theorem reject_session_hist (s : State) : (reject s).session.hist = s.session.hist := rfl
@[simp] theorem reject_session_wb (s : State) : (reject s).session.wb = s.session.wb := rfl
@[simp] theorem reject_session_ring (s : State) : (reject s).session.ring = s.session.ring := rfl
@[simp] theorem reject_session_lring (s : State) : (reject s).session.lring = s.session.lring := rfl
@[simp] theorem reject_session_dstate (s : State) : (reject s).session.dstate = .awaitingSync := rfl
@[simp] theorem reject_session_prog (s : State) : (reject s).session.prog = s.session.prog := rfl
@[simp] theorem reject_session_payLen (s : State) : (reject s).session.payLen = s.session.payLen := rfl
@[simp] theorem reject_session_payOvf (s : State) : (reject s).session.payOvf = s.session.payOvf := rfl
@[simp] theorem reject_session_chunkCnt (s : State) : (reject s).session.chunkCnt = s.session.chunkCnt := rfl
@[simp] theorem reject_session_frameCnt (s : State) : (reject s).session.frameCnt = s.session.frameCnt := rfl
@[simp] theorem reject_session_rejectCnt (s : State) : (reject s).session.rejectCnt = s.session.rejectCnt + 1 := rfl
@[simp] theorem reject_session_candBin0 (s : State) : (reject s).session.candBin0 = s.session.candBin0 := rfl
@[simp] theorem reject_session_candBin1 (s : State) : (reject s).session.candBin1 = s.session.candBin1 := rfl
@[simp] theorem reject_session_candCnt (s : State) : (reject s).session.candCnt = s.session.candCnt := rfl
@[simp] theorem reject_session_lagCnt (s : State) : (reject s).session.lagCnt = s.session.lagCnt := rfl
@[simp] theorem reject_mem (s : State) : (reject s).mem = s.mem := rfl
@[simp] theorem reject_events (s : State) : (reject s).events = s.events := rfl
@[simp] theorem reject_bus (s : State) : (reject s).bus = s.bus := rfl
@[simp] theorem reject_epoch (s : State) : (reject s).epoch = s.epoch := rfl

/-! `pushSlot` -/
@[simp] theorem pushSlot_settings (rp rl : Record) (s : State) : (pushSlot rp rl s).settings = s.settings := rfl
@[simp] theorem pushSlot_latched (rp rl : Record) (s : State) : (pushSlot rp rl s).latched = s.latched := rfl
@[simp] theorem pushSlot_ready (rp rl : Record) (s : State) : (pushSlot rp rl s).ready = s.ready := rfl
@[simp] theorem pushSlot_busy (rp rl : Record) (s : State) : (pushSlot rp rl s).busy = s.busy := rfl
@[simp] theorem pushSlot_pend (rp rl : Record) (s : State) : (pushSlot rp rl s).pend = s.pend := rfl
@[simp] theorem pushSlot_errFlags (rp rl : Record) (s : State) : (pushSlot rp rl s).errFlags = s.errFlags := rfl
@[simp] theorem pushSlot_errCode (rp rl : Record) (s : State) : (pushSlot rp rl s).errCode = s.errCode := rfl
@[simp] theorem pushSlot_irqStatus (rp rl : Record) (s : State) : (pushSlot rp rl s).irqStatus = s.irqStatus := rfl
@[simp] theorem pushSlot_irqEn (rp rl : Record) (s : State) : (pushSlot rp rl s).irqEn = s.irqEn := rfl
@[simp] theorem pushSlot_resultCount (rp rl : Record) (s : State) : (pushSlot rp rl s).resultCount = s.resultCount := rfl
@[simp] theorem pushSlot_resultReject (rp rl : Record) (s : State) : (pushSlot rp rl s).resultReject = s.resultReject := rfl
@[simp] theorem pushSlot_candIn (rp rl : Record) (s : State) : (pushSlot rp rl s).candIn = s.candIn := rfl
@[simp] theorem pushSlot_lagIn (rp rl : Record) (s : State) : (pushSlot rp rl s).lagIn = s.lagIn := rfl
@[simp] theorem pushSlot_h (rp rl : Record) (s : State) : (pushSlot rp rl s).h = s.h := rfl
@[simp] theorem pushSlot_session_hist (rp rl : Record) (s : State) : (pushSlot rp rl s).session.hist = s.session.hist := rfl
@[simp] theorem pushSlot_session_wb (rp rl : Record) (s : State) : (pushSlot rp rl s).session.wb = s.session.wb := rfl
@[simp] theorem pushSlot_session_ring (rp rl : Record) (s : State) : (pushSlot rp rl s).session.ring = shiftRing s.session.ring rp := rfl
@[simp] theorem pushSlot_session_lring (rp rl : Record) (s : State) : (pushSlot rp rl s).session.lring = shiftRing s.session.lring rl := rfl
@[simp] theorem pushSlot_session_dstate (rp rl : Record) (s : State) : (pushSlot rp rl s).session.dstate = s.session.dstate := rfl
@[simp] theorem pushSlot_session_prog (rp rl : Record) (s : State) : (pushSlot rp rl s).session.prog = s.session.prog := rfl
@[simp] theorem pushSlot_session_payLen (rp rl : Record) (s : State) : (pushSlot rp rl s).session.payLen = s.session.payLen := rfl
@[simp] theorem pushSlot_session_payOvf (rp rl : Record) (s : State) : (pushSlot rp rl s).session.payOvf = s.session.payOvf := rfl
@[simp] theorem pushSlot_session_chunkCnt (rp rl : Record) (s : State) : (pushSlot rp rl s).session.chunkCnt = s.session.chunkCnt + 1 := rfl
@[simp] theorem pushSlot_session_frameCnt (rp rl : Record) (s : State) : (pushSlot rp rl s).session.frameCnt = s.session.frameCnt := rfl
@[simp] theorem pushSlot_session_rejectCnt (rp rl : Record) (s : State) : (pushSlot rp rl s).session.rejectCnt = s.session.rejectCnt := rfl
@[simp] theorem pushSlot_session_candBin0 (rp rl : Record) (s : State) : (pushSlot rp rl s).session.candBin0 = (if 1 ≤ rp.length then BitVec.ofNat 16 (rp.getD 0 0) else 0) := rfl
@[simp] theorem pushSlot_session_candBin1 (rp rl : Record) (s : State) : (pushSlot rp rl s).session.candBin1 = (if rp.length = 2 then BitVec.ofNat 16 (rp.getD 1 0) else 0) := rfl
@[simp] theorem pushSlot_session_candCnt (rp rl : Record) (s : State) : (pushSlot rp rl s).session.candCnt = BitVec.ofNat 2 rp.length := rfl
@[simp] theorem pushSlot_session_lagCnt (rp rl : Record) (s : State) : (pushSlot rp rl s).session.lagCnt = BitVec.ofNat 2 rl.length := rfl
@[simp] theorem pushSlot_mem (rp rl : Record) (s : State) : (pushSlot rp rl s).mem = s.mem := rfl
@[simp] theorem pushSlot_events (rp rl : Record) (s : State) : (pushSlot rp rl s).events = s.events := rfl
@[simp] theorem pushSlot_bus (rp rl : Record) (s : State) : (pushSlot rp rl s).bus = s.bus := rfl
@[simp] theorem pushSlot_epoch (rp rl : Record) (s : State) : (pushSlot rp rl s).epoch = s.epoch := rfl

end Sys2Proof.Machine
end

