-- ==== Sys2Proof/Laws/Memory.lean ====
section
/-! SUPPORT. The laws of the byte memory: what a write leaves at every offset, and that the canonical form is kept. -/

namespace Sys2Proof.Machine

theorem lookup_append (m n : Memory) (a : Nat) :
    Memory.lookup (m ++ n) a = (Memory.lookup m a).or (Memory.lookup n a) := by
  induction m with
  | nil => simp [Memory.lookup]
  | cons c m ih =>
    obtain ⟨k, v⟩ := c
    by_cases h : k = a <;> simp [Memory.lookup, h, ih]

theorem lookup_filter (m : Memory) (p : Nat → Bool) (a : Nat) :
    Memory.lookup (m.filter fun c => p c.1) a = if p a then Memory.lookup m a else none := by
  induction m with
  | nil => simp [Memory.lookup]
  | cons c m ih =>
    obtain ⟨k, v⟩ := c
    by_cases hk : p k <;> by_cases h : k = a
    · subst h; simp [hk, Memory.lookup]
    · simp [hk, Memory.lookup, h, ih]
    · subst h; simp [hk, ih]
    · simp [hk, Memory.lookup, h, ih]

theorem lookup_cellsFrom (base : Nat) (bs : List Byte) (a : Nat) :
    Memory.lookup (cellsFrom base bs) a = if base ≤ a then bs[a - base]? else none := by
  induction bs generalizing base with
  | nil => simp [cellsFrom, Memory.lookup]
  | cons b bs ih =>
    simp only [cellsFrom, Memory.lookup, ih]
    by_cases h : base = a
    · subst h; simp
    · by_cases h2 : base ≤ a
      · have h3 : a - base = (a - (base + 1)) + 1 := by omega
        have h4 : base + 1 ≤ a := by omega
        rw [if_neg h, if_pos h4, if_pos h2, h3]; rfl
      · have h4 : ¬ base + 1 ≤ a := by omega
        rw [if_neg h, if_neg h4, if_neg h2]

/-- What a write leaves at every offset. -/
theorem lookup_writeBytes (m : Memory) (base : Nat) (bs : List Byte) (a : Nat) :
    (m.writeBytes base bs).lookup a
      = if base ≤ a ∧ a < base + bs.length then bs[a - base]? else m.lookup a := by
  unfold Memory.writeBytes
  rw [lookup_append, lookup_append, lookup_filter m (fun k => decide (k < base)),
    lookup_filter m (fun k => decide (base + bs.length ≤ k)), lookup_cellsFrom]
  by_cases h1 : a < base
  · have h2 : ¬ base ≤ a := by omega
    have h3 : ¬ base + bs.length ≤ a := by omega
    simp [h1, h2, h3]
  · by_cases h3 : base + bs.length ≤ a
    · have h4 : ¬ a < base + bs.length := by omega
      have h5 : bs[a - base]? = none := by
        apply List.getElem?_eq_none; omega
      have h6 : base ≤ a := by omega
      simp [h1, h3, h4, h5, h6]
    · have h4 : a < base + bs.length := by omega
      have h6 : base ≤ a := by omega
      simp [h1, h3, h4, h6]

/-- A write changes exactly the bytes it stores. -/
theorem byteAt_storeBytes (base : Nat) (bs : List Byte) (s : State) (a : Nat) :
    byteAt (storeBytes base bs s) a
      = if base ≤ a ∧ a < base + bs.length then bs.getD (a - base) 0 else byteAt s a := by
  unfold byteAt
  rw [storeBytes_mem, storeBytes_epoch, lookup_writeBytes]
  split
  · rename_i h
    have h2 : a - base < bs.length := by omega
    simp [List.getD, h2]
  · rfl

/-- The write leaves every other byte alone. -/
theorem storeBytes_keeps_outside (base : Nat) (bs : List Byte) (s : State) :
    KeepsBytesOutside base bs.length s (storeBytes base bs s) := by
  intro a ha
  rw [byteAt_storeBytes, if_neg (by omega)]

/-- A state's bytes depend on its memory and its epoch alone. -/
theorem byteAt_congr {s t : State} (hm : t.mem = s.mem) (he : t.epoch = s.epoch) (a : Nat) :
    byteAt t a = byteAt s a := by
  unfold byteAt; rw [hm, he]

/-! ### The canonical form -/

/-- The addresses of a canonical memory rise strictly. -/
theorem wf_iff_pairwise (m : Memory) : m.wf = true ↔ m.Pairwise (fun c d => c.1 < d.1) := by
  induction m with
  | nil => simp [Memory.wf]
  | cons c m ih =>
    cases m with
    | nil => simp [Memory.wf]
    | cons d m =>
      simp only [Memory.wf, Bool.and_eq_true, decide_eq_true_eq, ih]
      constructor
      · rintro ⟨h, hp⟩
        refine List.pairwise_cons.mpr ⟨?_, hp⟩
        intro x hx
        rcases List.mem_cons.mp hx with rfl | hx
        · exact h
        · exact lt_trans h ((List.pairwise_cons.mp hp).1 x hx)
      · intro hp
        have := List.pairwise_cons.mp hp
        exact ⟨this.1 d (by simp), this.2⟩

theorem cellsFrom_bounds (base : Nat) (bs : List Byte) :
    ∀ c ∈ cellsFrom base bs, base ≤ c.1 ∧ c.1 < base + bs.length := by
  induction bs generalizing base with
  | nil => simp [cellsFrom]
  | cons b bs ih =>
    intro c hc
    rcases List.mem_cons.mp hc with rfl | hc
    · simp
    · have := ih (base + 1) c hc
      simp only [List.length_cons]; omega

theorem cellsFrom_pairwise (base : Nat) (bs : List Byte) :
    (cellsFrom base bs).Pairwise (fun c d => c.1 < d.1) := by
  induction bs generalizing base with
  | nil => simp [cellsFrom]
  | cons b bs ih =>
    refine List.pairwise_cons.mpr ⟨?_, ih (base + 1)⟩
    intro c hc
    have := cellsFrom_bounds (base + 1) bs c hc
    simp only; omega

/-- The one write to memory keeps the canonical form. -/
theorem writeBytes_wf (m : Memory) (base : Nat) (bs : List Byte) (h : m.wf = true) :
    (m.writeBytes base bs).wf = true := by
  rw [wf_iff_pairwise] at h ⊢
  unfold Memory.writeBytes
  rw [List.pairwise_append, List.pairwise_append]
  refine ⟨⟨h.filter _, cellsFrom_pairwise base bs, ?_⟩, h.filter _, ?_⟩
  · intro c hc d hd
    have h1 := (List.mem_filter.mp hc).2
    have h2 := cellsFrom_bounds base bs d hd
    simp only [decide_eq_true_eq] at h1
    omega
  · intro c hc d hd
    have h2 := (List.mem_filter.mp hd).2
    simp only [decide_eq_true_eq] at h2
    rcases List.mem_append.mp hc with hc | hc
    · have h1 := (List.mem_filter.mp hc).2
      simp only [decide_eq_true_eq] at h1
      omega
    · have := cellsFrom_bounds base bs c hc
      omega

theorem storeBytes_wf (base : Nat) (bs : List Byte) (s : State) (h : s.mem.wf = true) :
    (storeBytes base bs s).mem.wf = true := writeBytes_wf s.mem base bs h

theorem reset_mem_wf : State.reset.mem.wf = true := by decide

end Sys2Proof.Machine
end

