-- ==== Sys2Proof/Laws/Frames.lean ====
section
/-! SUPPORT. What the shared operations of the decoder, the session and the buffers can change: one frame per operation,
built from the frames of its parts. -/

namespace Sys2Proof.Machine

theorem KeepsHostSide.refl (s : State) : KeepsHostSide s s := ⟨rfl, rfl, rfl, rfl, rfl, rfl, rfl, rfl, rfl⟩
theorem KeepsErrors.refl (s : State) : KeepsErrors s s := ⟨rfl, rfl⟩
theorem KeepsResult.refl (s : State) : KeepsResult s s := ⟨rfl, rfl⟩
theorem KeepsLatch.refl (s : State) : KeepsLatch s s := ⟨rfl, rfl, rfl⟩

theorem KeepsHostSide.trans {s t u : State} (h : KeepsHostSide s t) (k : KeepsHostSide t u) : KeepsHostSide s u :=
  ⟨k.1.trans h.1, k.2.trans h.2, k.3.trans h.3, k.4.trans h.4, k.5.trans h.5, k.6.trans h.6, k.7.trans h.7,
    k.8.trans h.8, k.9.trans h.9⟩
theorem KeepsErrors.trans {s t u : State} (h : KeepsErrors s t) (k : KeepsErrors t u) : KeepsErrors s u :=
  ⟨k.1.trans h.1, k.2.trans h.2⟩
theorem KeepsResult.trans {s t u : State} (h : KeepsResult s t) (k : KeepsResult t u) : KeepsResult s u :=
  ⟨k.1.trans h.1, k.2.trans h.2⟩
theorem KeepsLatch.trans {s t u : State} (h : KeepsLatch s t) (k : KeepsLatch t u) : KeepsLatch s u :=
  ⟨k.1.trans h.1, k.2.trans h.2, k.3.trans h.3⟩

/-- What every part of the decoder step leaves alone: all but DSTATE, PROG, HIST, PAY_LEN, PAY_OVF, FRAME_CNT,
REJECT_CNT, IRQ_STATUS and the PAY bytes (45_decoder R252 to R261). -/
structure DecoderFrame (s t : State) : Prop where
  host : KeepsHostSide s t
  errors : KeepsErrors s t
  result : KeepsResult s t
  latch : KeepsLatch s t
  bytes : KeepsBytesOutside payBase 256 s t
  wf : s.mem.wf = true → t.mem.wf = true
  wb : t.session.wb = s.session.wb
  ring : t.session.ring = s.session.ring
  lring : t.session.lring = s.session.lring
  chunkCnt : t.session.chunkCnt = s.session.chunkCnt
  candBin0 : t.session.candBin0 = s.session.candBin0
  candBin1 : t.session.candBin1 = s.session.candBin1
  candCnt : t.session.candCnt = s.session.candCnt
  lagCnt : t.session.lagCnt = s.session.lagCnt

theorem DecoderFrame.refl (s : State) : DecoderFrame s s :=
  ⟨.refl s, .refl s, .refl s, .refl s, fun _ _ => rfl, id, rfl, rfl, rfl, rfl, rfl, rfl, rfl, rfl⟩

theorem DecoderFrame.trans {s t u : State} (h : DecoderFrame s t) (k : DecoderFrame t u) : DecoderFrame s u where
  host := h.host.trans k.host
  errors := h.errors.trans k.errors
  result := h.result.trans k.result
  latch := h.latch.trans k.latch
  bytes := fun a ha => (k.bytes a ha).trans (h.bytes a ha)
  wf := fun w => k.wf (h.wf w)
  wb := k.wb.trans h.wb
  ring := k.ring.trans h.ring
  lring := k.lring.trans h.lring
  chunkCnt := k.chunkCnt.trans h.chunkCnt
  candBin0 := k.candBin0.trans h.candBin0
  candBin1 := k.candBin1.trans h.candBin1
  candCnt := k.candCnt.trans h.candCnt
  lagCnt := k.lagCnt.trans h.lagCnt

/-- An update of DSTATE, PROG, HIST, PAY_LEN, PAY_OVF, FRAME_CNT, REJECT_CNT and IRQ_STATUS is inside the frame. -/
theorem DecoderFrame.ofSession {s t : State} (u : Session) (irq : BitVec 4)
    (ht : t = { s with session := u, irqStatus := irq }) (h1 : u.wb = s.session.wb)
    (h2 : u.ring = s.session.ring) (h3 : u.lring = s.session.lring) (h4 : u.chunkCnt = s.session.chunkCnt)
    (h5 : u.candBin0 = s.session.candBin0) (h6 : u.candBin1 = s.session.candBin1)
    (h7 : u.candCnt = s.session.candCnt) (h8 : u.lagCnt = s.session.lagCnt) : DecoderFrame s t := by
  subst ht
  exact ⟨⟨rfl, rfl, rfl, rfl, rfl, rfl, rfl, rfl, rfl⟩, ⟨rfl, rfl⟩, ⟨rfl, rfl⟩, ⟨rfl, rfl, rfl⟩, fun _ _ => rfl, id,
    h1, h2, h3, h4, h5, h6, h7, h8⟩

/-- storePay changes at most one PAY byte. -/
theorem storePay_frame (i : Nat) (b : Byte) (s : State) : DecoderFrame s (storePay i b s) := by
  unfold storePay
  split
  · rename_i hi
    refine ⟨⟨rfl, rfl, rfl, rfl, rfl, rfl, rfl, rfl, rfl⟩, ⟨rfl, rfl⟩, ⟨rfl, rfl⟩, ⟨rfl, rfl, rfl⟩, ?_,
      storeBytes_wf _ _ _, rfl, rfl, rfl, rfl, rfl, rfl, rfl, rfl⟩
    intro a ha
    refine storeBytes_keeps_outside (payBase + i) [b] s a ?_
    simp only [List.length_singleton]
    omega
  · exact .refl s

theorem storePay_session (i : Nat) (b : Byte) (s : State) : (storePay i b s).session = s.session := by
  unfold storePay; split <;> rfl

theorem storePay_latched (i : Nat) (b : Byte) (s : State) : (storePay i b s).latched = s.latched :=
  (storePay_frame i b s).latch.latched

theorem acquire_frame (s : State) : DecoderFrame s (acquire s) :=
  .ofSession _ s.irqStatus rfl rfl rfl rfl rfl rfl rfl rfl rfl

theorem reject_frame (s : State) : DecoderFrame s (reject s) :=
  .ofSession _ s.irqStatus rfl rfl rfl rfl rfl rfl rfl rfl rfl

/-- The payload loop of accept stays inside the decoder's frame (R260). -/
theorem appendPayload_frame (bs : List Byte) (s : State) : DecoderFrame s (appendPayload bs s) := by
  induction bs generalizing s with
  | nil => exact .ofSession _ s.irqStatus rfl rfl rfl rfl rfl rfl rfl rfl rfl
  | cons b bs ih =>
    unfold appendPayload
    split
    · exact (storePay_frame _ 0 s).trans (.ofSession _ _ rfl rfl rfl rfl rfl rfl rfl rfl rfl)
    · split
      · refine DecoderFrame.trans (t := storePay s.session.payLen.toNat b s) (storePay_frame _ b s) ?_
        refine DecoderFrame.trans ?_ (ih _)
        exact .ofSession _ _ rfl rfl rfl rfl rfl rfl rfl rfl rfl
      · refine DecoderFrame.trans ?_ (ih _)
        exact .ofSession _ s.irqStatus rfl rfl rfl rfl rfl rfl rfl rfl rfl

theorem accept_frame (fr : List Byte) (s : State) : DecoderFrame s (accept fr s) :=
  DecoderFrame.trans (.ofSession { s.session with frameCnt := s.session.frameCnt + 1 } (s.irqStatus ||| 0b0010)
    rfl rfl rfl rfl rfl rfl rfl rfl rfl) (appendPayload_frame _ _)

theorem frameAttempt_frame (c : Cfg) (s : State) : DecoderFrame s (frameAttempt c s) := by
  have h0 : DecoderFrame s { s with session := { s.session with prog := 0 } } :=
    .ofSession _ s.irqStatus rfl rfl rfl rfl rfl rfl rfl rfl rfl
  unfold frameAttempt
  simp only
  split
  · exact h0.trans (reject_frame _)
  · exact h0.trans (accept_frame _ _)

theorem seekSync_frame (c : Cfg) (s : State) : DecoderFrame s (seekSync c s) := by
  unfold seekSync
  split
  · exact acquire_frame s
  · exact .refl s

/-- Everything the decoder step leaves alone (R252). -/
theorem decoderStep_frame (c : Cfg) (s : State) : DecoderFrame s (decoderStep c s) := by
  unfold decoderStep
  split
  · exact .refl s
  · refine DecoderFrame.trans ?_ (seekSync_frame c _)
    exact .ofSession _ s.irqStatus rfl rfl rfl rfl rfl rfl rfl rfl rfl
  · exact seekSync_frame c s
  · split
    · exact acquire_frame s
    · have h1 : DecoderFrame s { s with session := { s.session with prog := s.session.prog + 1 } } :=
        .ofSession _ s.irqStatus rfl rfl rfl rfl rfl rfl rfl rfl rfl
      simp only
      split
      · exact h1.trans (frameAttempt_frame c _)
      · exact h1

/-- What a slot step does to what the decoder step leaves alone (43_spectral R210): the rings, CHUNK_CNT, CAND and
CAND_CNT are those of pushSlot, everything else outside the decoder's own state is unchanged. -/
theorem slotStep_frame (c : Cfg) (rp rl : Record) (s : State) :
    DecoderFrame (pushSlot rp rl s) (slotStep c rp rl s) := decoderStep_frame c _

/-- The host's side, errors, RESULT and L of a state survive a slot step. -/
theorem slotStep_keeps (c : Cfg) (rp rl : Record) (s : State) :
    KeepsHostSide s (slotStep c rp rl s) ∧ KeepsErrors s (slotStep c rp rl s) ∧ KeepsResult s (slotStep c rp rl s)
      ∧ KeepsLatch s (slotStep c rp rl s) ∧ KeepsBytesOutside payBase 256 s (slotStep c rp rl s)
      ∧ (s.mem.wf = true → (slotStep c rp rl s).mem.wf = true) := by
  have h := slotStep_frame c rp rl s
  refine ⟨⟨?_, ?_, ?_, ?_, ?_, ?_, ?_, ?_, ?_⟩, ⟨?_, ?_⟩, ⟨?_, ?_⟩, ⟨?_, ?_, ?_⟩, ?_, h.wf⟩
  · exact h.host.settings
  · exact h.host.irqEn
  · exact h.host.candIn
  · exact h.host.lagIn
  · exact h.host.pend
  · exact h.host.busy
  · exact h.host.events
  · exact h.host.bus
  · exact h.host.epoch
  · exact h.errors.errFlags
  · exact h.errors.errCode
  · exact h.result.count
  · exact h.result.reject
  · exact h.latch.ready
  · exact h.latch.latched
  · exact h.latch.h
  · exact h.bytes

/-- The ring keeps its length. -/
theorem shiftRing_length (ring : List Record) (r : Record) : (shiftRing ring r).length = ring.length := by
  simp [shiftRing]

/-- The window keeps its length. -/
theorem pushWindow_length (wb v : List Rat) : (pushWindow wb v).length = wb.length := by
  simp [pushWindow]

/-- The filter history keeps its length, and every input sample gives one output. -/
theorem firStream_lengths (num : Numerics) (h : List Rat) (hist xs : List Half) :
    (firStream num h hist xs).1.length = xs.length ∧ (firStream num h hist xs).2.length = hist.length := by
  induction xs generalizing hist with
  | nil => simp [firStream]
  | cons x xs ih =>
    have := ih (x :: hist).dropLast
    simp only [firStream, firStep, List.length_cons]
    exact ⟨by omega, by rw [this.2]; simp⟩

/-- Storing samples in OUT stores two bytes for each, from OUT's base. -/
theorem storeOut_keeps_outside (vs : List Half) (s : State) :
    KeepsBytesOutside outBase (2 * vs.length) s (storeOut vs s) := by
  have h : (vs.flatMap sampleBytes).length = 2 * vs.length := by
    induction vs with
    | nil => rfl
    | cons v vs ih => simp only [List.flatMap_cons, List.length_append, ih, sampleBytes, List.length_cons, List.length_nil]; omega
  unfold storeOut
  rw [← h]
  exact storeBytes_keeps_outside outBase _ s

/-- clear_session changes the session and the PAY bytes alone (40_control R134). -/
theorem clearSession_frame (p : Params) (s : State) :
    KeepsHostSide s (clearSession p s) ∧ KeepsErrors s (clearSession p s) ∧ KeepsResult s (clearSession p s)
      ∧ KeepsLatch s (clearSession p s) ∧ (clearSession p s).irqStatus = s.irqStatus
      ∧ KeepsBytesOutside payBase 256 s (clearSession p s) := by
  refine ⟨⟨rfl, rfl, rfl, rfl, rfl, rfl, rfl, rfl, rfl⟩, ⟨rfl, rfl⟩, ⟨rfl, rfl⟩, ⟨rfl, rfl, rfl⟩, rfl, ?_⟩
  intro a ha
  have := storeBytes_keeps_outside payBase (List.replicate 256 (0 : Byte))
    { s with session := Session.fresh (fftSize p.cfg s.latched.band) s.latched.ringLen } a
    (by rw [List.length_replicate]; exact ha)
  exact this

/-- What the gate of a command's rule can answer (60_exceptions R301, R306). -/
theorem gated_cases (needs bad : Bool) (s go : State) :
    (needs = true ∧ s.ready = false ∧ gated needs bad s go = .next (report .notReady s))
      ∨ (¬(needs = true ∧ s.ready = false) ∧ bad = true ∧ gated needs bad s go = .next (report .badArg s))
      ∨ (¬(needs = true ∧ s.ready = false) ∧ bad = false ∧ gated needs bad s go = .next go) := by
  unfold gated raise
  cases needs <;> cases hr : s.ready <;> cases bad <;> simp

/-- A gated command whose checks pass answers its effect. -/
theorem gated_pass {needs bad : Bool} {s : State} (go : State) (hr : needs = true → s.ready = true) (hb : bad = false) :
    gated needs bad s go = .next go := by
  unfold gated
  cases needs
  · simp [hb]
  · simp [hb, hr rfl]

/-- Every command answers a next state: no meaning faults or refuses (93 section 1, after the table). -/
theorem gated_isNext (needs bad : Bool) (s go : State) : ∃ t, gated needs bad s go = .next t := by
  rcases gated_cases needs bad s go with h | h | h
  · exact ⟨_, h.2.2⟩
  · exact ⟨_, h.2.2⟩
  · exact ⟨_, h.2.2⟩

/-- The end of a core step of a command that answered a next state. -/
@[simp] theorem finishCommand_next (t : State) : finishCommand (.next t) = .next (complete t) := rfl

/-- Every configuration in use meets the constraints of 00_scope R6. -/
theorem cfg_valid : cfgValid cfg = true := by
  unfold cfg
  split
  · assumption
  · decide +kernel

end Sys2Proof.Machine
end

