-- ==== Sys2Proof/Laws/Ops.lean ====
section
/-! SUPPORT. What each shared operation of Machine/Ops.lean, the filter stream and the slot push leave behind, said once. -/

namespace Sys2Proof.Machine

/-! ### Reading back what was stored -/

/-- The bytes read from the place they were stored at. -/
theorem bytesAt_storeBytes (base : Nat) (bs : List Byte) (s : State) :
    bytesAt (storeBytes base bs s) base bs.length = bs := by
  apply List.ext_getElem
  · simp [bytesAt]
  · intro i h1 h2
    simp only [bytesAt, List.getElem_map, List.getElem_range, byteAt_storeBytes]
    rw [if_pos (by omega)]
    simp [List.getD, h2]

theorem flatMap_sampleBytes_length (vs : List Half) : (vs.flatMap sampleBytes).length = 2 * vs.length := by
  induction vs with
  | nil => rfl
  | cons v vs ih =>
    simp only [List.flatMap_cons, List.length_append, ih, sampleBytes, List.length_cons, List.length_nil]; omega

theorem flatMap_sampleBytes_getD (vs : List Half) (n : Nat) (h : n < vs.length) :
    (vs.flatMap sampleBytes).getD (2 * n) 0 = (vs.getD n 0).extractLsb' 0 8
      ∧ (vs.flatMap sampleBytes).getD (2 * n + 1) 0 = (vs.getD n 0).extractLsb' 8 8 := by
  induction vs generalizing n with
  | nil => simp at h
  | cons v vs ih =>
    cases n with
    | zero => simp [sampleBytes]
    | succ n =>
      have := ih n (by simpa using h)
      have e1 : 2 * (n + 1) = 2 * n + 1 + 1 := by ring
      have e2 : 2 * (n + 1) + 1 = 2 * n + 1 + 1 + 1 := by ring
      rw [e1]
      simpa [sampleBytes, List.getD] using this

/-- OUT[n] after a store of samples into OUT. -/
theorem outSample_storeOut (vs : List Half) (s : State) (n : Nat) (h : n < vs.length) :
    outSample (storeOut vs s) n = vs.getD n 0 := by
  have hl := flatMap_sampleBytes_length vs
  have hg := flatMap_sampleBytes_getD vs n h
  unfold outSample sampleAt storeOut
  rw [byteAt_storeBytes, byteAt_storeBytes, if_pos (by omega), if_pos (by omega)]
  have e1 : outBase + 2 * n + 1 - outBase = 2 * n + 1 := by omega
  have e2 : outBase + 2 * n - outBase = 2 * n := by omega
  rw [e1, e2, hg.1, hg.2]
  ext i hi
  simp only [BitVec.getElem_append, BitVec.getElem_extractLsb']
  split
  · simp [BitVec.getLsbD_eq_getElem hi]
  · rename_i h8
    have : 8 + (i - 8) = i := by omega
    simp only [this, BitVec.getLsbD_eq_getElem hi]

/-- CW after a store from index `i`. -/
theorem byteAt_storeCw (i : Nat) (bs : List Byte) (s : State) (a : Nat) :
    byteAt (storeCw i bs s) a
      = if cwBase + i ≤ a ∧ a < cwBase + i + bs.length then bs.getD (a - (cwBase + i)) 0 else byteAt s a :=
  byteAt_storeBytes _ _ _ _

/-- PAY after a store of one byte. -/
theorem byteAt_storePay (i : Nat) (b : Byte) (s : State) (a : Nat) (h : i < 256) :
    byteAt (storePay i b s) a = if a = payBase + i then b else byteAt s a := by
  unfold storePay
  rw [if_pos h, byteAt_storeBytes]
  simp only [List.length_singleton]
  by_cases ha : a = payBase + i
  · subst ha; simp
  · rw [if_neg (by omega), if_neg ha]

/-! ### The error record -/

/-- After a report some flag is set. -/
theorem report_errFlags_ne_zero (c : ErrCode) (s : State) : (report c s).errFlags ≠ 0 := by
  intro h
  have : (s.errFlags ||| (1#7 <<< (c.code - 1))).getLsbD (c.code - 1) = false := by
    have h' : s.errFlags ||| (1#7 <<< (c.code - 1)) = 0 := h
    rw [h']; simp
  rw [BitVec.getLsbD_or] at this
  cases c <;> simp [ErrCode.code] at this

/-- The code of an error is never 0. -/
theorem code_ne_zero (c : ErrCode) : BitVec.ofNat 8 c.code ≠ 0 := by cases c <;> decide

/-- A report touches nothing but the error record and IRQ_STATUS (60_exceptions R305). -/
theorem report_keeps (c : ErrCode) (s : State) :
    KeepsHostSide s (report c s) ∧ KeepsResult s (report c s) ∧ KeepsLatch s (report c s)
      ∧ (report c s).session = s.session ∧ (report c s).mem = s.mem :=
  ⟨⟨rfl, rfl, rfl, rfl, rfl, rfl, rfl, rfl, rfl⟩, ⟨rfl, rfl⟩, ⟨rfl, rfl, rfl⟩, rfl, rfl⟩

/-- The acknowledgment leaves ERR_CODE zero when no flag is left (10_state R43). -/
theorem ackErrors_cases (v : Word) (s : State) :
    ((ackErrors v s).errFlags = 0 ∧ (ackErrors v s).errCode = 0)
      ∨ ((ackErrors v s).errFlags ≠ 0 ∧ (ackErrors v s).errCode = s.errCode) := by
  unfold ackErrors
  by_cases h : s.errFlags &&& ~~~(v.setWidth 7) = 0
  · exact .inl ⟨h, if_pos h⟩
  · exact .inr ⟨h, if_neg h⟩

/-! ### The filter stream -/

/-- A stream of two pieces is the pieces in order (42_fir R183). -/
theorem firStream_append (num : Numerics) (h : List Rat) (hist xs ys : List Half) :
    firStream num h hist (xs ++ ys)
      = ((firStream num h hist xs).1 ++ (firStream num h (firStream num h hist xs).2 ys).1,
          (firStream num h (firStream num h hist xs).2 ys).2) := by
  induction xs generalizing hist with
  | nil => rfl
  | cons x xs ih => simp only [List.cons_append, firStream, ih]

/-- A rounded sample read as a signed number is the clamped integer (42_fir R186). -/
theorem roundSample_toInt (y : Rat) : (roundSample y).toInt = sat16 (rne y) := by
  unfold roundSample
  rw [BitVec.toInt_ofInt]
  generalize rne y = v
  unfold sat16
  split
  · decide
  · split
    · decide
    · apply Int.bmod_eq_of_le <;> omega

/-! ### The slot push -/

/-- What pushSlot leaves in the rings, CHUNK_CNT, CAND and CAND_CNT, for a record of at most two bins (43_spectral R210). -/
theorem pushSlot_pushed (rp rl : Record) (s : State) (h : rp.length ≤ 2) : SlotPushed rp rl s (pushSlot rp rl s) := by
  refine ⟨rfl, rfl, rfl, ?_, ?_, rfl, rfl⟩
  · cases rp <;> simp [pushSlot]
  · rcases rp with _ | ⟨a, _ | ⟨b, _ | ⟨c, r⟩⟩⟩
    · simp [pushSlot]
    · simp [pushSlot]
    · simp [pushSlot]
    · simp at h

end Sys2Proof.Machine
end

