-- ==== Sys2Proof/Laws/PerInstr.lean ====
section
/-! SUPPORT. Statements for all commands, made per command. EncodesRow: the word that `encode` writes for a well-formed
command selects that command's row of the opcode map (30_encoding R108: `(w & mask) == match`). -/

namespace Sys2Proof.Laws

/-- The encoded word of a well-formed command selects its row of 30_encoding R108. -/
def EncodesRow.Statement (i : Instr) : Prop := i.wellFormed = true → encode i &&& rowMask i = rowPattern i

theorem EncodesRow.nop : EncodesRow.Statement .nop := by unfold EncodesRow.Statement; decide
theorem EncodesRow.init : EncodesRow.Statement .init := by unfold EncodesRow.Statement; decide
theorem EncodesRow.clear : EncodesRow.Statement .clear := by unfold EncodesRow.Statement; decide
theorem EncodesRow.analyze : EncodesRow.Statement .analyze := by unfold EncodesRow.Statement; decide
theorem EncodesRow.chunk : EncodesRow.Statement .chunk := by unfold EncodesRow.Statement; decide

theorem EncodesRow.firRun (l : Nat) : EncodesRow.Statement (.firRun l) := by
  intro _
  ext j hj
  simp only [encode, rowMask, rowPattern, BitVec.getElem_and, BitVec.getElem_or, BitVec.getElem_shiftLeft]
  by_cases h : j < 16
  · simp [h]; interval_cases j <;> simp
  · have : 16 ≤ j := by omega
    interval_cases j <;> simp

theorem EncodesRow.candPush (cnt lcnt : Nat) : EncodesRow.Statement (.candPush cnt lcnt) := by
  intro h
  simp only [Instr.wellFormed, Bool.and_eq_true, decide_eq_true_eq] at h
  obtain ⟨h1, h2⟩ := h
  interval_cases cnt <;> interval_cases lcnt <;> decide

theorem EncodesRow.synth (sym : Nat) : EncodesRow.Statement (.synth sym) := by
  intro h
  simp only [Instr.wellFormed, decide_eq_true_eq] at h
  interval_cases sym <;> decide

/-- A word below 256 has no bit from bit 8 upward. -/
theorem high_bit_false {w : Word} (hw : w.toNat < 256) (m : Nat) (h : m < 32) (hm : 8 ≤ m) : w[m] = false := by
  rw [← BitVec.getLsbD_eq_getElem]
  exact Nat.testBit_lt_two_pow (lt_of_lt_of_le (by omega : w.toNat < 2 ^ 8) (Nat.pow_le_pow_right (by omega) hm))

/-- The operand bits of a format R word lie outside the row's mask. -/
theorem formatR_masked (op d k : Word) (hop : op.toNat < 256) (hd : d.toNat < 256) (hk : k.toNat < 256) :
    (op ||| (k <<< 8) ||| (d <<< 16)) &&& 0xFF0000FF = op := by
  have ho' := high_bit_false hop
  have hd' := high_bit_false hd
  have hk' := high_bit_false hk
  ext j hj
  simp only [BitVec.getElem_and, BitVec.getElem_or, BitVec.getElem_shiftLeft]
  interval_cases j <;> simp_all

theorem EncodesRow.rsEnc (d k : Nat) : EncodesRow.Statement (.rsEnc d k) := by
  intro h
  simp only [Instr.wellFormed, Bool.and_eq_true, decide_eq_true_eq] at h
  exact formatR_masked 0x08 (BitVec.ofNat 32 d) (BitVec.ofNat 32 k) (by decide) (by simp; omega) (by simp; omega)

theorem EncodesRow.rsDec (d k : Nat) : EncodesRow.Statement (.rsDec d k) := by
  intro h
  simp only [Instr.wellFormed, Bool.and_eq_true, decide_eq_true_eq] at h
  exact formatR_masked 0x09 (BitVec.ofNat 32 d) (BitVec.ofNat 32 k) (by decide) (by simp; omega) (by simp; omega)

end Sys2Proof.Laws
end

