-- ==== Sys2Proof/Tests/Slice0.lean ====
section
/-! SUPPORT. The model's own tests: one step or one operation on a small state, with the expected result from the spec's
worked examples (95_test_vectors, and the Example lines of the rules) or by hand from the rule, and for each obligation
with hypotheses a state that meets them. -/

namespace Sys2Proof.Tests

open Sys2Proof.Machine

/-! ### WellFormed: each check refuses (30_encoding R116) -/

theorem test_wf_refuses_long_run : (Instr.firRun 65536).wellFormed = false := by decide
theorem test_wf_refuses_wide_cnt : (Instr.candPush 4 0).wellFormed = false := by decide
theorem test_wf_refuses_wide_lcnt : (Instr.candPush 0 4).wellFormed = false := by decide
theorem test_wf_refuses_wide_enc_d : (Instr.rsEnc 256 0).wellFormed = false := by decide
theorem test_wf_refuses_wide_enc_k : (Instr.rsEnc 1 256).wellFormed = false := by decide
theorem test_wf_refuses_wide_dec_d : (Instr.rsDec 256 0).wellFormed = false := by decide
theorem test_wf_refuses_wide_dec_k : (Instr.rsDec 1 256).wellFormed = false := by decide
theorem test_wf_refuses_wide_sym : (Instr.synth 16).wellFormed = false := by decide
theorem test_assemble_refuses : assemble (.synth 16) = none ∧ assemble (.synth 15) = some 0x00000F0A := by decide

/-! ### Decoding: words written out bit by bit from 30_encoding R101 (format Z, L, C, R, S) -/

theorem test_decode_nop : decode 0b00000000000000000000000000000000 = .ok .nop := by decide
theorem test_decode_init : decode 0b00000000000000000000000000000001 = .ok .init := by decide
theorem test_decode_clear : decode 0b00000000000000000000000000000010 = .ok .clear := by decide
theorem test_decode_firRun : decode 0b00000000100000000000000000000011 = .ok (.firRun 128) := by decide
theorem test_decode_analyze : decode 0b00000000000000000000000000000100 = .ok .analyze := by decide
theorem test_decode_chunk : decode 0b00000000000000000000000000000101 = .ok .chunk := by decide
theorem test_decode_candPush : decode 0b00000000000000000000011000000110 = .ok (.candPush 2 1) := by decide
theorem test_decode_rsEnc : decode 0b00000000000001000000001000001000 = .ok (.rsEnc 4 2) := by decide
theorem test_decode_rsDec : decode 0b00000000000011000000100000001001 = .ok (.rsDec 12 8) := by decide
theorem test_decode_synth : decode 0b00000000000000000000111100001010 = .ok (.synth 15) := by decide
theorem test_decode_errors : decode 0x00000007 = .illegalOp ∧ decode 0xFFFFFF0B = .illegalOp
    ∧ decode 0x00000100 = .reservedField ∧ decode 0x00001006 = .reservedField := by decide
theorem test_decode_table_word : decodeTableWord 32 0x00800003 = some (.firRun 128)
    ∧ decodeTableWord 32 0x0000000B = none := by decide

/-! ### Small states -/

/-- L for band Low with N = 3 and K = 2, so F = 12 (95_test_vectors program P3). -/
def lowL : Latched := ⟨.low, 16000, 3, 2, 5, 256, 0x000A0000, 0x00008000, false, false⟩

/-- A ready state in band Low. -/
def readyState : State := { State.reset with ready := true, latched := lowL }

/-- The frame A5 A5 48 00 5E 5D (45_decoder R267, Example). -/
def helloFrame : List Byte := [0xA5, 0xA5, 0x48, 0x00, 0x5E, 0x5D]

/-- A ring of 96 records whose newest generation holds the frame's symbols in the example band EX. -/
def frameRing : List Record :=
  (frameSymbols helloFrame).flatMap (fun y => List.replicate 7 [] ++ [[symbolBin exCfg .low y]])

/-- The slot before the attempt: Decoding with PROG = 63, the last symbol not yet pushed. -/
def lastSlotState : State :=
  { readyState with
    candIn := BitVec.ofNat 32 (symbolBin exCfg .low 5)
    session := { Session.fresh 0 0 with dstate := .decoding, prog := 63, ring := [] :: frameRing.take 95 } }

/-- The slot of the attempt itself. -/
def attemptState : State :=
  { readyState with session := { Session.fresh 0 0 with dstate := .decoding, prog := 63, ring := frameRing } }

/-- Done with three payload bytes (40_control R135, Example). -/
def doneState : State :=
  { readyState with
    session := { Session.fresh 0 0 with dstate := .done, payLen := 3, frameCnt := 3, chunkCnt := 219 }
    mem := [(0x500, 0x48), (0x501, 0x69), (0x502, 0x00)] }

/-- A numeric type whose elementary functions are constants, so that values can be written out by hand. -/
def flatNum (power : Nat → Rat) : Numerics :=
  ⟨⟨3, fun _ => 0, fun _ => 1⟩, fun _ _ _ _ => 0, fun _ _ => 0,
    fun wb k => power k - powerFormula ⟨3, fun _ => 0, fun _ => 1⟩ 1024 k wb, fun _ _ _ _ _ => 0⟩

/-- Two payload peaks and two lag peaks. -/
def twoPeaks (k : Nat) : Rat :=
  if k = 128 then 40 else if k = 200 then 30 else if k = 96 then 20 else if k = 112 then 15 else 1

/-- The state a step gives, or the state given as a default. -/
def nextOr (d : State) : Host.Outcome State Fault Refusal → State
  | .next t => t
  | .fault _ => d
  | .refused _ => d

/-! ### One step or one operation per instruction -/

/-- 40_control R130, Example: at reset NOP leaves every register but IRQ_STATUS = 1. -/
theorem test_nop : (nextOr readyState (step (State.reset.withFetchWord 32 0))) = { State.reset with irqStatus := 1 } := by
  decide

/-- 40_control R131, Example: INIT at reset sets STATUS = 2. -/
theorem test_init_status : statusWord (nextOr State.reset (step (State.reset.withFetchWord 32 1))) = 2 := by rfl

/-- 40_control R132: FS not the band's rate. -/
theorem test_init_invalid :
    (nextOr State.reset (execInit { readyState with settings := { Settings.reset with fs := 32000 } }))
      = { readyState with settings := { Settings.reset with fs := 32000 }, ready := false, errFlags := 0x20, errCode := 6,
                          irqStatus := 8 } := by decide

/-- 40_control R135, Example. -/
theorem test_clear : (fun t => (t.session.dstate, t.session.payLen, t.session.frameCnt, t.session.chunkCnt,
      bytesAt t 0x500 3, t.ready)) (nextOr readyState (execClear doneState))
    = (.awaitingSync, 0, 0, 0, [0, 0, 0], true) := by rfl

/-- 42_fir R186 by hand: H = (1/2, 1/2, 0, …), IN = 3, 4, −5: y = 1.5, 3.5, −0.5, rounded to even. -/
theorem test_firRun : (fun t => ((List.range 3).map (outSample t), t.session.hist.take 3))
      (firRunEffect ⟨exCfg, flatNum twoPeaks⟩ 3 (storeBytes inBase [3, 0, 4, 0, 0xFB, 0xFF]
        { readyState with h := 1 / 2 :: 1 / 2 :: List.replicate 30 0 }))
    = ([2, 4, 0], [0xFFFB, 4, 3]) := by decide +kernel

/-- 42_fir R186: a full-scale constant saturates. -/
theorem test_firRun_saturates : outSample (firRunEffect ⟨exCfg, flatNum twoPeaks⟩ 1 (storeBytes inBase [0xFF, 0x7F]
      { readyState with h := 2 :: List.replicate 31 0 })) 0 = 32767 := by decide +kernel

/-- 43_spectral R205 to R210 by hand on given powers: 40 and 30 over a floor of 10, 30 > 40 / 2. -/
theorem test_analyze_record : payloadRecord ⟨exCfg, flatNum twoPeaks⟩ lowL [1] = [128, 200]
    ∧ lagRecord ⟨exCfg, flatNum twoPeaks⟩ { lowL with pre := true } [1] = [96, 112]
    ∧ lagRecord ⟨exCfg, flatNum twoPeaks⟩ lowL [1] = [] := by decide +kernel

/-- 43_spectral R211: a silent chunk makes a slot with no candidate. -/
theorem test_analyze_slot : (fun t => (t.session.chunkCnt, candWord t, candCntWord t, t.session.ring.length))
      (analyzeValues ⟨exCfg, flatNum twoPeaks⟩ [0] { attemptState with session := { attemptState.session with dstate := .done } })
    = (1, 0, 0, 96) := by decide +kernel

/-- 45_decoder R266: CHUNK moves the filter history by CHUNK = 128 samples. -/
theorem test_chunk_hist : (chunkEffect ⟨exCfg, flatNum twoPeaks⟩ (storeBytes (inBase + 2 * 97) (List.replicate 62 7)
      { doneState with h := List.replicate 32 0 })).session.hist = List.replicate 31 0x0707 := by decide +kernel

/-- 45_decoder R267, Example: the last symbol of A5 A5 48 00 5E 5D gives PAY = 48 00 and Done. -/
theorem test_candPush_accepts : (fun t => (t.session.dstate, t.session.payLen, bytesAt t 0x500 2, t.irqStatus, t.session.frameCnt))
      (candPushEffect exCfg 1 0 lastSlotState) = (.done, 2, [0x48, 0x00], 6, 1) := by decide +kernel

/-- 30_encoding R110: CNT = 3 is a bad argument. -/
theorem test_candPush_bad_arg : nextOr State.reset (execCandPush 3 0 readyState)
    = { readyState with errFlags := 0x10, errCode := 5, irqStatus := 8 } := by rfl

/-- 41_reed_solomon R158, Example. -/
theorem test_rsEnc : cwBytes (nextOr State.reset (execRsEnc 4 2 (storeCw 0 [0xA5, 0xA5, 0x48, 0x00] State.reset))) 6
    = helloFrame := by decide +kernel

/-- 41_reed_solomon R162, Example. -/
theorem test_rsDec_corrects : (fun t => (cwBytes t 6, resultWord t))
      (nextOr State.reset (execRsDec 4 2 (storeCw 0 [0xA5, 0xA5, 0x41, 0x00, 0x5E, 0x5D] State.reset)))
    = (helloFrame, 1) := by decide +kernel

/-- 41_reed_solomon R161 step 3, Example: must be rejected. -/
theorem test_rsDec_rejects : (fun t => (cwBytes t 4, resultWord t))
      (nextOr State.reset (execRsDec 2 2 (storeCw 0 [0x90, 0x18, 0xBC, 0xA4] State.reset)))
    = ([0x90, 0x18, 0xBC, 0xA4], 0x100) := by decide +kernel

/-- 44_synth R231 by hand with sin = 1 and the window at 0.54: 0, then 16384 × 0.54 = 8847.36. -/
theorem test_synth : (List.range 2).map (toneSample ⟨exCfg, flatNum twoPeaks⟩ lowL 0) = [0, 8847] := by decide +kernel

/-! ### Shared operations -/

/-- A small band: FFT 64 and one bin between tones. -/
def smallCfg : Cfg := { exCfg with low := ⟨64, (List.range 16).map (fun s => 1000 + 250 * s), 1, 500, .highpass, 500, 750⟩ }

/-- 44_synth R233 by hand: tone 3 is 1750 Hz, bin 7; the conforming numeric type gives its burst that bin. -/
theorem test_own_burst : burstBin ⟨smallCfg, fallbackNumerics⟩ .low 3 = some 7
    ∧ burstClassified ⟨smallCfg, fallbackNumerics⟩ .low 3 = true := by decide +kernel

/-- 44_synth R233: a numeric type whose powers are blind to the window breaks the bound. -/
theorem test_blind_numerics : burstClassified ⟨smallCfg, { fallbackNumerics with powerError := fun _ _ => 1 }⟩ .low 3 = false := by
  decide +kernel

/-- 10_state R42 by hand: BUSY, Done, PAY_OVF and ERR_CODE = 5. -/
theorem test_status_layout : statusWord { doneState with
      busy := true, ready := false, errCode := 5, session := { doneState.session with payOvf := true } } = 0x51D := by decide

/-- 20_memory R86: two 16-bit writes read back as one 32-bit value. -/
theorem test_mixed_width : (nextOr State.reset (hostRead 0x400 .four (nextOr State.reset (hostWrite 0x402 .two 0xABCD
      (nextOr State.reset (hostWrite 0x400 .two 0x1234 State.reset)))))).bus.data = 0xABCD1234 := by decide

/-- 41_reed_solomon R151, R152, R154: worked values. -/
theorem test_field : alphaTo 8 = 0x1D ∧ alphaTo 254 = 0x8E ∧ alphaTo 255 = 0 ∧ indexOf 0xFF = 175 ∧ indexOf 0 = 255
    ∧ gfMul 0x53 0xCA = 0x8F ∧ gfInv 0x53 = 0x8C ∧ genPoly 4 = [0x74, 0xE7, 0xD8, 0x1E, 0x01] := by decide +kernel

/-- 45_decoder R259, Example: 124 to 132 are 0, 133 is 1, 250 to 253 are 15. -/
theorem test_classify : ([124, 132, 133, 250, 253].map (classify exCfg .low 16000)) = [0, 0, 1, 15, 15] := by decide +kernel

/-- 43_spectral R200, Example. -/
theorem test_payload_region : payloadRegion exCfg .low = (124, 252) := by decide +kernel

/-- 20_memory R86, Example: two byte writes make a sample. -/
theorem test_byte_writes : inSample (nextOr State.reset (hostWrite 0x4001 .one 0x12
      (nextOr State.reset (hostWrite 0x4000 .one 0x34 State.reset)))) 0 = 0x1234 := by decide

/-- 00_scope R15: ties to even, on both sides of zero. -/
theorem test_rne : [5 / 2, 7 / 2, -1 / 2, -3 / 2, 1 / 3].map rne = [2, 4, 0, -2, 0] := by decide +kernel

/-! ### Each obligation's hypotheses can be met -/

theorem wit_DecodeOfEncodeIsTheCommand : (Instr.firRun 65535).wellFormed = true ∧ (Instr.candPush 3 3).wellFormed = true
    ∧ (Instr.rsEnc 255 255).wellFormed = true ∧ (Instr.rsDec 0 0).wellFormed = true ∧ (Instr.synth 15).wellFormed = true := by
  decide

theorem wit_EncodeOfDecodeIsTheWord : decode 0xFFFF0003 = .ok (.firRun 65535) ∧ decode 0x00FFFF08 = .ok (.rsEnc 255 255) := by
  decide

theorem wit_DecodeOutcomes : opField 0x00000007 = 7 ∧ opField 0x0000000B = 0x0B ∧ opField 0x000000FF = 0xFF
    ∧ (0x00000100 : Word) &&& reservedBits (opField 0x00000100) ≠ 0
    ∧ (0x00000F0A : Word) &&& reservedBits (opField 0x00000F0A) = 0 := by decide

theorem wit_StepRunsTheDecodedCommand : (State.reset.withFetchWord 32 0).busy = true
    ∧ CoreIsNext (State.reset.withFetchWord 32 0) ∧ decode (State.reset.withFetchWord 32 0).pend = .ok .nop
    ∧ decode (State.reset.withFetchWord 32 7).pend = .illegalOp
    ∧ decode (State.reset.withFetchWord 32 0x100).pend = .reservedField :=
  ⟨rfl, .inr ⟨[], rfl⟩, by decide, by decide, by decide⟩

theorem wit_CoreStepEndsEveryCommand : CoreIsNext { State.reset with busy := true } ∧ CoreIsNext State.reset
    ∧ State.reset.busy = false := ⟨.inl rfl, .inl rfl, rfl⟩

theorem wit_CmdWriteIsAcceptedOrDropped :
    ({ State.reset with events := [.write 0x01C .four 0x1] }).events = .write 0x01C .four 0x1 :: []
      ∧ ({ State.reset with events := [.write 0x01C .two 0x1], busy := true }).events = .write 0x01C .two 0x1 :: []
      ∧ AccessSize.one ≠ .four := ⟨rfl, rfl, by decide⟩

theorem wit_CommandErrorsArePrecise : RaisesError .clear State.reset .notReady
    ∧ RaisesError (.firRun 0) readyState .badArg ∧ RaisesError (.firRun 8193) readyState .badArg
    ∧ RaisesError (.candPush 0 3) readyState .badArg ∧ RaisesError (.rsDec 1 255) State.reset .badArg
    ∧ RaisesError .init { State.reset with settings := { Settings.reset with maxcomb := 0 } } .cfgInvalid :=
  ⟨.inl ⟨rfl, rfl, rfl⟩, .inr (.inl ⟨rfl, by decide, .inl rfl⟩), .inr (.inl ⟨rfl, by decide, .inr (by decide)⟩),
    .inr (.inl ⟨rfl, by decide, .inr rfl⟩), .inr (.inl ⟨rfl, by decide, .inr (by decide)⟩),
    .inr (.inr ⟨rfl, rfl, by unfold SettingsInvalid; decide⟩)⟩

theorem wit_CommandErrorsArePrecise_none : (∀ c, ¬RaisesError .nop State.reset c)
    ∧ (∀ c, ¬RaisesError (.firRun 8192) readyState c) ∧ (∀ c, ¬RaisesError .init State.reset c) := by
  refine ⟨?_, ?_, ?_⟩
  · rintro c (⟨-, h, -⟩ | ⟨-, -, h⟩ | ⟨-, h, -⟩)
    · exact absurd h (by decide)
    · exact h
    · exact absurd h (by decide)
  · rintro c (⟨-, -, h⟩ | ⟨-, -, h | h⟩ | ⟨-, h, -⟩)
    · exact absurd h (by decide)
    · exact absurd h (by decide)
    · exact absurd h (by decide)
    · exact absurd h (by decide)
  · rintro c (⟨-, h, -⟩ | ⟨-, -, h⟩ | ⟨-, -, h⟩)
    · exact absurd h (by decide)
    · exact h
    · exact absurd h (by unfold SettingsInvalid; decide)

theorem wit_InitLatchesAndStartsAFreshSession : ¬SettingsInvalid Settings.reset
    ∧ ¬SettingsInvalid ⟨2, 44100, 0x02FB02, 1, 0, 0⟩ ∧ ¬SettingsInvalid ⟨0xD, 32000, 0xFF00FD, 1, 0, 0⟩
    ∧ SettingsInvalid ⟨3, 16000, 0xC8080B, 1, 0, 0⟩ ∧ SettingsInvalid ⟨0, 16000, 0xC80801, 1, 0, 0⟩ := by
  unfold SettingsInvalid
  decide

theorem wit_NopChangesNothing : (withCommand 0 doneState).busy = true ∧ CoreIsNext (withCommand 0 doneState)
    ∧ (withCommand 0 doneState).pend = 0x00000000 := ⟨rfl, .inr ⟨[], rfl⟩, rfl⟩

theorem wit_ClearStartsAFreshSession : doneState.ready = true ∧ State.reset.ready = false := ⟨rfl, rfl⟩

theorem wit_RepeatedInitIsClear : ∃ s t u : State, exec .init s = .next t ∧ t.ready = true ∧ u.settings = s.settings
    ∧ u.latched = t.latched ∧ u.h = t.h ∧ u.ready = true ∧ u.session.chunkCnt = 5 :=
  ⟨State.reset, initSession params .low State.reset,
    { initSession params .low State.reset with session := { Session.fresh 0 0 with chunkCnt := 5 } },
    rfl, rfl, rfl, rfl, rfl, rfl, rfl⟩

theorem wit_ClearLeaksNothingOfTheSession : readyState.ready = true ∧ readyState.mem.wf = true
    ∧ Memory.wf [(0x500, 7), (0x5FF, 9)] = true
    ∧ ∀ a, a < payBase ∨ payBase + 256 ≤ a → Memory.lookup [(0x500, 7), (0x5FF, 9)] a = readyState.mem.lookup a := by
  refine ⟨rfl, rfl, rfl, ?_⟩
  intro a ha
  unfold payBase at ha
  have h1 : ¬0x500 = a := by omega
  have h2 : ¬0x5FF = a := by omega
  simp [Memory.lookup, h1, h2, readyState, State.reset]

theorem wit_SettingsTakeEffectOnlyAtInit : ∃ t, exec (.rsEnc 1 2) State.reset = .next t := ⟨_, rfl⟩

theorem wit_FirRunFiltersTheInput : readyState.ready = true ∧ readyState.session.hist.length = 31
    ∧ (1 ≤ 1 ∧ 1 ≤ 8192) ∧ (1 ≤ 8192 ∧ 8192 ≤ 8192) := by decide

/-- One sample, then one more, against two at once. -/
def twoSamples : State := storeBytes inBase [1, 0, 2, 0] readyState

theorem wit_FirRunsOverPiecesAgree : ∃ u t t1 t2 : State, twoSamples.ready = true ∧ u.ready = true
    ∧ exec (.firRun (1 + 1)) twoSamples = .next t ∧ exec (.firRun 1) twoSamples = .next t1
    ∧ u.h = twoSamples.h ∧ u.session.hist = t1.session.hist ∧ (∀ n, n < 1 → inSample u n = inSample twoSamples (1 + n))
    ∧ exec (.firRun 1) u = .next t2 :=
  ⟨storeBytes inBase [2, 0] (firRunEffect params 1 twoSamples), _, _, _, rfl, rfl, rfl, rfl, rfl, rfl,
    by intro n hn; interval_cases n; rfl, rfl⟩

theorem wit_PayloadRegionCoversEveryTone : cfgValid exCfg = true ∧ (0 : Nat) < 16 ∧ (15 : Nat) < 16 := by decide +kernel

theorem wit_EightPushesReplaceTheWindow : ∃ (wb v : List Rat) (vs : List (List Rat)), v.length ≤ wb.length
    ∧ 0 < wb.length - v.length ∧ 0 < v.length ∧ wb.length = 8 * 2 ∧ vs.length = 8 ∧ ∀ v ∈ vs, v.length = 2 :=
  ⟨List.replicate 16 0, [1, 2], List.replicate 8 [1, 2], by decide, by decide, by decide, by decide, by decide, by simp⟩

/-- Powers with the strongest bin 3 and a second peak at 7. -/
def peaks (k : Nat) : Rat := if k = 3 then 10 else if k = 7 then 8 else 1

theorem wit_RecordIsTheStrongestBins : StrongestBin peaks (fun k => 0 ≤ k ∧ k ≤ 9) 3
    ∧ (∀ k, 0 ≤ k → k ≤ 9 → peaks 0 ≤ peaks k) ∧ peaks 3 ≤ 100 * peaks 0 ∧ 2 * peaks 0 < peaks 3
    ∧ StrongestBin peaks (fun k => (0 ≤ k ∧ k ≤ 9) ∧ 2 ≤ binDist k 3) 7
    ∧ ∀ k, 0 ≤ k → k ≤ 9 → binDist k 3 < 20 := by
  refine ⟨⟨by decide, ?_⟩, ?_, by decide +kernel, by decide +kernel, ⟨by decide, ?_⟩, ?_⟩
  · rintro j ⟨-, h⟩; interval_cases j <;> decide +kernel
  · intro k _ h; interval_cases k <;> decide +kernel
  · rintro j ⟨⟨-, h⟩, h2⟩
    interval_cases j <;> first | decide +kernel | (exfalso; revert h2; decide)
  · intro k _ h; interval_cases k <;> decide

theorem wit_RecordBinsLieInTheRegion : (∃ p l wb k0 k1, payloadRecord p l wb = [k0, k1])
    ∧ (∃ p l wb k0 k1, lagRecord p l wb = [k0, k1]) ∧ lowL.pre = false :=
  ⟨⟨⟨exCfg, flatNum twoPeaks⟩, lowL, [1], 128, 200, test_analyze_record.1⟩,
    ⟨⟨exCfg, flatNum twoPeaks⟩, { lowL with pre := true }, [1], 96, 112, test_analyze_record.2.1⟩, rfl⟩

theorem wit_AnalyzeMakesOneSlotStep : ∃ (s : State) (v wb : List Rat), s.ready = true
    ∧ v = (List.range (chunkLen params.cfg s.latched.band)).map (fun n => (((inSample s n).toInt : ℤ) : Rat))
    ∧ wb = pushWindow s.session.wb v ∧ s.session.dstate = .decoding := ⟨attemptState, _, _, rfl, rfl, rfl, rfl⟩

theorem wit_ChunkFiltersThenMakesOneSlotStep : ∃ (s : State) (v wb : List Rat), s.ready = true
    ∧ s.session.hist.length = 31
    ∧ v = (List.range (chunkLen params.cfg s.latched.band)).map
        (fun n => firValue params.num s.h ((List.range 32).map (streamTap s n)))
    ∧ wb = pushWindow s.session.wb v := ⟨attemptState, _, _, rfl, rfl, rfl, rfl⟩

theorem wit_CandPushMakesOneSlotStep : lastSlotState.ready = true ∧ (2 : Nat) ≤ 2 ∧ (0 : Nat) ≤ 2
    ∧ injectedRecord lastSlotState.candIn 2 = [168, 0] := by decide +kernel

theorem wit_SyncTestsLookOneSymbolPeriodApart : frameRing.length = 8 * lowL.frameSlots := by decide +kernel

/-- The first four symbols in place. -/
def syncedState : State := { readyState with
  session := { Session.fresh 0 0 with ring := List.replicate 64 [] ++ frameRing.take 32 } }

/-- L.PRE = 1 and the two sync tones one symbol period apart. -/
def laggedState (d : DState) : State := { readyState with
  latched := { lowL with pre := true }
  session := { Session.fresh 0 0 with
    dstate := d, lring := List.replicate 87 [] ++ [[96]] ++ List.replicate 7 [] ++ [[112]] } }

theorem wit_DecoderTransitions : doneState.session.dstate = .done
    ∧ SyncSeen exCfg syncedState ∧ SyncSeen exCfg (laggedState .frameComplete) ∧ ¬SyncSeen exCfg readyState
    ∧ LagSeen exCfg (laggedState .decoding) ∧ ¬LagSeen exCfg attemptState
    ∧ attemptState.session.prog + 1 = 8 * (attemptState.latched.frameSlots - 4)
    ∧ attemptResult exCfg lowL (List.replicate 96 []) = none
    ∧ attemptResult exCfg lowL frameRing = some helloFrame := by
  unfold SyncSeen LagSeen
  decide +kernel

theorem wit_AcceptAppendsThePayload : 2 ≤ lowL.maxstr.toNat
    ∧ readyState.session.payLen.toNat + 4 = lowL.maxstr.toNat - 1
    ∧ storedPayload 3 4 helloFrame = [0x48, 0x00] ∧ storedPayload 4 1 [0xA5, 0xA5, 1, 2, 3] = [1]
    ∧ storedPayload 4 0 [0xA5, 0xA5, 1, 0, 3] = [0] := by decide

theorem wit_AttemptTakesTheFirstCombinationThatDecodes :
    candidateProduct ((List.range lowL.frameSlots).map (fun j => frameRing.getD (8 * j + 7) [])) = 1
      ∧ candidateProduct ((List.range lowL.frameSlots).map (fun j => (List.replicate 96 []).getD (8 * j + 7) [])) = 0
      ∧ radixChoice [[1, 2], [3], [4, 5]] 2 = [2, 3, 4] := by decide +kernel

theorem wit_ClassifyRecoversTheSymbol : cfgValid exCfg = true ∧ symbolBin exCfg .high 15 = 279 := by decide +kernel

theorem wit_FramesCarryTheString : (2 : Nat) ≤ 2 ∧ (framesOfString exCfg 2 0 [0x48]).length = 2
    ∧ helloFrame ∈ framesOfString exCfg 3 2 [0x48] := by decide +kernel

theorem wit_CleanFrameIsAccepted : cfgValid exCfg = true ∧ 2 ≤ lowL.n.toNat ∧ lowL.fs.toNat = rate lowL.band
    ∧ [(0x48 : Byte)].length ≤ lowL.n.toNat - 1 ∧ frameOf exCfg 3 2 [0x48] = helloFrame
    ∧ ∀ j, j < lowL.frameSlots → frameRing.getD (8 * j + 7) []
        = symbolBin exCfg lowL.band ((frameSymbols helloFrame).getD j 0) :: [] := by decide +kernel

theorem wit_FieldLaws : ∃ a b : Byte, a ≠ 0 ∧ b ≠ 0 ∧ gfMul a b = 1 := ⟨0x8E, 0x02, by decide, by decide, by decide +kernel⟩

theorem wit_CodewordsAreTheZeroSyndromeBuffers : helloFrame.length = 4 + 2
    ∧ helloFrame = [0xA5, 0xA5, 0x48, 0x00] ++ rsEncode [0xA5, 0xA5, 0x48, 0x00] 2
    ∧ (List.replicate 255 (0 : Byte)).length = 1 + 254 := by decide +kernel

theorem wit_CodewordsAreFarApart : ∃ d1 d2 : List Byte, d1.length = 4 ∧ d2.length = 4 ∧ d1 ≠ d2 ∧ 4 + 251 ≤ 255 :=
  ⟨[1, 2, 3, 4], [1, 2, 3, 5], by decide⟩

theorem wit_Decode : rsDecode [0xA5, 0xA5, 0x41, 0x00, 0x5E, 0x5D] 4 2 = some (1, helloFrame)
    ∧ rsDist [0xA5, 0xA5, 0x41, 0x00, 0x5E, 0x5D] helloFrame = 1
    ∧ rsDecode [0x90, 0x18, 0xBC, 0xA4] 2 2 = none ∧ rsDecode [1, 2] 2 0 = some (0, [1, 2]) := by decide +kernel

theorem wit_DecodeIsBoundedDistanceDecoding : ∀ data : List Byte, data.length = 1 →
    2 / 2 < rsDist [0, 1, 1] (data ++ rsEncode data 2) := by
  have h : ∀ a : Byte, 2 / 2 < rsDist [0, 1, 1] ([a] ++ rsEncode [a] 2) := by decide +kernel
  intro data hd
  obtain ⟨a, rfl⟩ := List.length_eq_one_iff.mp hd
  exact h a

theorem wit_DecodeCorrectsOneWrongByte : helloFrame.modify 5 (fun b => b ^^^ 0xFF) ≠ helloFrame
    ∧ 1 ≤ [(0xA5 : Byte), 0xA5, 0x48, 0x00].length ∧ 5 < [(0xA5 : Byte), 0xA5, 0x48, 0x00].length + 2 := by decide

theorem wit_RsCommands : (1 ≤ 1 ∧ 1 + 254 ≤ 255) ∧ (1 ≤ 255 ∧ 255 + 0 ≤ 255)
    ∧ rsDecode (cwBytes (storeCw 0 [0x90, 0x18, 0xBC, 0xA4] State.reset) (2 + 2)) 2 2 = none
    ∧ rsDecode (cwBytes (storeCw 0 helloFrame State.reset) (4 + 2)) 4 2 = some (0, helloFrame) := by decide +kernel

theorem wit_SynthWritesTheBurst : readyState.ready = true ∧ (15 : Nat) < 16 ∧ (0 : Nat) < 16 := by decide

theorem wit_OwnBurstsAreClassifiedAsTheirSymbols : lowL.fs.toNat = rate lowL.band ∧ (0 : Nat) < 16 ∧ (15 : Nat) < 16 := by
  decide

theorem wit_BusErrorsOnlyReport : accessLegal (0x001 : Offset).toNat .two = false ∧ accessLegal (0x058 : Offset).toNat .four = false
    ∧ accessLegal (0x054 : Offset).toNat .one = false ∧ accessLegal (0xC000 : Offset).toNat .one = false
    ∧ ({ State.reset with events := [.read 0x001 .two] }).events = .read 0x001 .two :: [] := by decide

theorem wit_ReadsAnswerTheRegistersAndChangeNothing : accessLegal (0x054 : Offset).toNat .four = true
    ∧ (∃ t, hostRead 0x054 .four State.reset = .next t) ∧ readyState.session.dstate = .awaitingSync
    ∧ attemptState.session.dstate = .decoding ∧ (laggedState .frameComplete).session.dstate = .frameComplete
    ∧ doneState.session.dstate = .done := ⟨by decide, ⟨_, rfl⟩, rfl, rfl, rfl, rfl⟩

theorem wit_BufferAccessesAreLittleEndian : State.reset.busy = false ∧ accessLegal (0x4FF : Offset).toNat .one = true
    ∧ regionOf (0x4FF : Offset).toNat = .cwBuf ∧ accessLegal (0xBFFE : Offset).toNat .two = true
    ∧ regionOf (0xBFFE : Offset).toNat = .outBuf ∧ regionOf (0x4000 : Offset).toNat = .inBuf ∧ 4095 < 4096
    ∧ accessLegal (0x5FC : Offset).toNat .four = true ∧ regionOf (0x5FC : Offset).toNat = .payload := by decide

theorem wit_RegisterWritesStoreOrAreIgnored : State.reset.busy = false
    ∧ ¬((0x004 : Offset) = 0x03C ∨ (0x004 : Offset) = 0x040) ∧ regAt (0x040 : Offset).toNat = some .lagIn
    ∧ accessLegal (0x020 : Offset).toNat .four = true ∧ accessLegal (0x5FF : Offset).toNat .one = true := by decide

theorem wit_OnlyBusyHazardsStopTheMachine :
    HazardAccess (.read 0x0400 .one) ∧ HazardAccess (.write 0x040 .four 0) ∧ ¬HazardAccess (.read 0x4000 .one)
      ∧ ¬HazardAccess (.write 0x500 .one 0)
      ∧ step { State.reset with busy := true, events := [.read 0x0400 .one] } = .fault (.busyHazard false 0x0400) := by
  refine ⟨by unfold HazardAccess; decide, by unfold HazardAccess; decide, by unfold HazardAccess; decide,
    by unfold HazardAccess; decide, rfl⟩

/-- A ready state that meets the session invariant: the one INIT gives from reset. -/
theorem wit_StepKeepsTheSessionInvariant : ∃ s t, SessionInv params.cfg s ∧ s.ready = true ∧ s.busy = true ∧ step s = .next t
    ∧ s.mem.wf = true ∧ ErrorsConsistent s := by
  refine ⟨withCommand 0x00000002 (initSession params .low State.reset), _, ⟨⟨rfl, rfl, ?_⟩, fun _ => ?_⟩, rfl, rfl, rfl, ?_, ?_⟩
  · intro _; rfl
  · have hw : (Session.fresh (fftSize params.cfg .low) (latch .low Settings.reset).ringLen).wb.length
        = fftSize params.cfg .low := by simp [Session.fresh]
    refine ⟨by decide, by decide, by decide, by decide, by decide, hw, by decide +kernel, by decide +kernel, ?_, ?_, by decide, ?_, ?_⟩
    · intro r hr
      have : r ∈ List.replicate (latch .low Settings.reset).ringLen ([] : Record) := hr
      rw [List.eq_of_mem_replicate this]; simp
    · intro r hr
      have : r ∈ List.replicate (latch .low Settings.reset).ringLen ([] : Record) := hr
      rw [List.eq_of_mem_replicate this]; simp
    · intro _; decide
    · intro h; exact absurd h (by decide)
  · exact storeBytes_wf payBase _ _ reset_mem_wf
  · unfold ErrorsConsistent; decide

theorem wit_ResetInputGivesTheResetValues :
    ({ attemptState with busy := true, events := [.reset] }).events = .reset :: [] := rfl

theorem wit_DoneIsLeftOnlyByInitClearOrReset : doneState.session.dstate = .done
    ∧ (∃ t, step doneState = .next t) ∧ ∃ t, step (withCommand 0x00000002 doneState) = .next t :=
  ⟨rfl, ⟨_, rfl⟩, ⟨_, rfl⟩⟩

theorem wit_StepKeepsMemoryCanonical : doneState.mem.wf = true
    ∧ ∃ t, step { doneState with events := [.write 0x4001 .one 7] } = .next t := ⟨by decide, _, rfl⟩

theorem wit_StepKeepsTheErrorRecordConsistent : ErrorsConsistent { State.reset with errFlags := 0x40, errCode := 7 }
    ∧ ErrorsConsistent State.reset ∧ ∃ t, step (State.reset.withFetchWord 32 7) = .next t := by
  refine ⟨by unfold ErrorsConsistent; decide, by unfold ErrorsConsistent; decide, _, rfl⟩

theorem wit_OnlyTheDecoderAndRestartsWritePay : ∃ t, step (withCommand 0x00000006 lastSlotState) = .next t := ⟨_, rfl⟩

theorem wit_OnlyInitAndResetChangeTheLatch : (∃ t, step (withCommand 0x00000001 readyState) = .next t)
    ∧ ∃ t, step { readyState with events := [.reset] } = .next t := ⟨⟨_, rfl⟩, _, rfl⟩

end Sys2Proof.Tests
end

