-- ==== Sys2Proof/Proofs/Scope/Settings.lean ====
section
/-! PROOFS. No command but INIT reads the settings registers (40_control R133, 70_reset R353): every operation commutes
with a change of the settings. -/

namespace Sys2Proof.Proofs

open Sys2Proof.Machine

/-- The state with other settings registers. -/
def withSettings (x : Settings) (s : State) : State := { s with settings := x }

/-! ### The rules of a change of settings -/

@[simp] theorem withSettings_latched (x : Settings) (s : State) : (withSettings x s).latched = s.latched := rfl
@[simp] theorem withSettings_ready (x : Settings) (s : State) : (withSettings x s).ready = s.ready := rfl
@[simp] theorem withSettings_candIn (x : Settings) (s : State) : (withSettings x s).candIn = s.candIn := rfl
@[simp] theorem withSettings_lagIn (x : Settings) (s : State) : (withSettings x s).lagIn = s.lagIn := rfl
@[simp] theorem withSettings_h (x : Settings) (s : State) : (withSettings x s).h = s.h := rfl
@[simp] theorem withSettings_session (x : Settings) (s : State) : (withSettings x s).session = s.session := rfl

@[simp] theorem cwBytes_withSettings (x : Settings) (s : State) (n : Nat) :
    cwBytes (withSettings x s) n = cwBytes s n := rfl
@[simp] theorem inSamples_withSettings (x : Settings) (s : State) (l : Nat) :
    inSamples (withSettings x s) l = inSamples s l := rfl

/-! ### The shared operations commute with it -/

@[simp] theorem report_withSettings (c : ErrCode) (x : Settings) (s : State) :
    report c (withSettings x s) = withSettings x (report c s) := rfl
@[simp] theorem storeOut_withSettings (vs : List Half) (x : Settings) (s : State) :
    storeOut vs (withSettings x s) = withSettings x (storeOut vs s) := rfl
@[simp] theorem storeCw_withSettings (i : Nat) (bs : List Byte) (x : Settings) (s : State) :
    storeCw i bs (withSettings x s) = withSettings x (storeCw i bs s) := rfl
@[simp] theorem setResult_withSettings (n : Nat) (r : Bool) (x : Settings) (s : State) :
    setResult n r (withSettings x s) = withSettings x (setResult n r s) := rfl
@[simp] theorem clearSession_withSettings (p : Params) (x : Settings) (s : State) :
    clearSession p (withSettings x s) = withSettings x (clearSession p s) := rfl
@[simp] theorem pushSlot_withSettings (rp rl : Record) (x : Settings) (s : State) :
    pushSlot rp rl (withSettings x s) = withSettings x (pushSlot rp rl s) := rfl
@[simp] theorem acquire_withSettings (x : Settings) (s : State) :
    acquire (withSettings x s) = withSettings x (acquire s) := rfl
@[simp] theorem reject_withSettings (x : Settings) (s : State) :
    reject (withSettings x s) = withSettings x (reject s) := rfl

@[simp] theorem storePay_withSettings (i : Nat) (b : Byte) (x : Settings) (s : State) :
    storePay i b (withSettings x s) = withSettings x (storePay i b s) := by
  unfold storePay
  split <;> rfl

/-- The payload loop of accept (R260). -/
theorem appendPayload_withSettings (bs : List Byte) (x : Settings) (s : State) :
    appendPayload bs (withSettings x s) = withSettings x (appendPayload bs s) := by
  induction bs generalizing s with
  | nil => rfl
  | cons b bs ih =>
    simp only [appendPayload, withSettings_session, withSettings_latched, storePay_withSettings,
      apply_ite (withSettings x), ← ih]
    rfl

theorem accept_withSettings (fr : List Byte) (x : Settings) (s : State) :
    accept fr (withSettings x s) = withSettings x (accept fr s) := by
  simp only [accept, ← appendPayload_withSettings]
  rfl

/-- A frame attempt depends on L and the ring alone (R256). -/
theorem frameAttempt_withSettings (c : Cfg) (x : Settings) (s : State) :
    frameAttempt c (withSettings x s) = withSettings x (frameAttempt c s) := by
  simp only [frameAttempt, withSettings_session, withSettings_latched]
  split
  · rfl
  · rw [← accept_withSettings]; rfl

theorem seekSync_withSettings (c : Cfg) (x : Settings) (s : State) :
    seekSync c (withSettings x s) = withSettings x (seekSync c s) := by
  simp only [seekSync, withSettings_session, withSettings_latched, acquire_withSettings,
    apply_ite (withSettings x)]
  rfl

/-- The decoder step in each of the decoder's states (R252). -/
theorem decoderStep_withSettings (c : Cfg) (x : Settings) (s : State) :
    decoderStep c (withSettings x s) = withSettings x (decoderStep c s) := by
  cases hd : s.session.dstate with
  | done => simp only [decoderStep, withSettings_session, hd]
  | awaitingSync => simp only [decoderStep, withSettings_session, hd, seekSync_withSettings]
  | frameComplete =>
    simp only [decoderStep, withSettings_session, hd, ← seekSync_withSettings]
    rfl
  | decoding =>
    simp only [decoderStep, withSettings_session, withSettings_latched, hd, acquire_withSettings,
      apply_ite (withSettings x), ← frameAttempt_withSettings]
    rfl

theorem slotStep_withSettings (c : Cfg) (rp rl : Record) (x : Settings) (s : State) :
    slotStep c rp rl (withSettings x s) = withSettings x (slotStep c rp rl s) := by
  simp only [slotStep, pushSlot_withSettings, decoderStep_withSettings]

theorem analyzeValues_withSettings (p : Params) (v : List Rat) (x : Settings) (s : State) :
    analyzeValues p v (withSettings x s) = withSettings x (analyzeValues p v s) := by
  simp only [analyzeValues, withSettings_session, withSettings_latched, ← slotStep_withSettings]
  rfl

/-! ### The effects of the commands commute with it -/

theorem firRunEffect_withSettings (p : Params) (l : Nat) (x : Settings) (s : State) :
    firRunEffect p l (withSettings x s) = withSettings x (firRunEffect p l s) := rfl

theorem analyzeEffect_withSettings (p : Params) (x : Settings) (s : State) :
    analyzeEffect p (withSettings x s) = withSettings x (analyzeEffect p s) := by
  simp only [analyzeEffect, withSettings_latched, inSamples_withSettings, analyzeValues_withSettings]

theorem chunkEffect_withSettings (p : Params) (x : Settings) (s : State) :
    chunkEffect p (withSettings x s) = withSettings x (chunkEffect p s) := by
  simp only [chunkEffect, withSettings_session, withSettings_latched, withSettings_h, inSamples_withSettings,
    ← analyzeValues_withSettings]
  rfl

theorem candPushEffect_withSettings (c : Cfg) (cnt lcnt : Nat) (x : Settings) (s : State) :
    candPushEffect c cnt lcnt (withSettings x s) = withSettings x (candPushEffect c cnt lcnt s) := by
  simp only [candPushEffect, withSettings_candIn, withSettings_lagIn, slotStep_withSettings]

theorem rsEncEffect_withSettings (d k : Nat) (x : Settings) (s : State) :
    rsEncEffect d k (withSettings x s) = withSettings x (rsEncEffect d k s) := rfl

theorem rsDecEffect_withSettings (d k : Nat) (x : Settings) (s : State) :
    rsDecEffect d k (withSettings x s) = withSettings x (rsDecEffect d k s) := by
  simp only [rsDecEffect, cwBytes_withSettings, storeCw_withSettings, setResult_withSettings]
  split <;> rfl

/-! ### The commands: each command but NOP and INIT is a gate around an effect (60_exceptions R306) -/

theorem exec_nop (s : State) : exec .nop s = .next s := rfl
theorem exec_clear (s : State) : exec .clear s = gated true false s (clearSession params s) := rfl
theorem exec_firRun (l : Nat) (s : State) :
    exec (.firRun l) s = gated true (firArgBad l) s (firRunEffect params l s) := rfl
theorem exec_analyze (s : State) : exec .analyze s = gated true false s (analyzeEffect params s) := rfl
theorem exec_chunk (s : State) : exec .chunk s = gated true false s (chunkEffect params s) := rfl
theorem exec_candPush (cnt lcnt : Nat) (s : State) :
    exec (.candPush cnt lcnt) s = gated true (pushArgBad cnt lcnt) s (candPushEffect params.cfg cnt lcnt s) := rfl
theorem exec_rsEnc (d k : Nat) (s : State) :
    exec (.rsEnc d k) s = gated false (rsArgBad d k) s (rsEncEffect d k s) := rfl
theorem exec_rsDec (d k : Nat) (s : State) :
    exec (.rsDec d k) s = gated false (rsArgBad d k) s (rsDecEffect d k s) := rfl
theorem exec_synth (sym : Nat) (s : State) :
    exec (.synth sym) s = gated true false s (storeOut (toneBurst params s.latched sym) s) := rfl

/-- The gate looks at READY and the arguments alone (60_exceptions R306), so a gated effect that commutes with a change
of the settings is a command that does. -/
theorem gated_withSettings {needs bad : Bool} {s t : State} {effect : State → State} (x : Settings)
    (he : effect (withSettings x s) = withSettings x (effect s)) (h : gated needs bad s (effect s) = .next t) :
    gated needs bad (withSettings x s) (effect (withSettings x s)) = .next (withSettings x t) := by
  simp only [gated, raise, withSettings_ready, report_withSettings, he] at h ⊢
  split_ifs at h ⊢ <;> cases h <;> rfl

/-- Settles O15: each command is its gate around an effect that commutes with a change of the settings. -/
theorem settingsTakeEffectOnlyAtInit : Obligations.SettingsTakeEffectOnlyAtInit := by
  intro i s t x hi h
  change exec i (withSettings x s) = .next (withSettings x t)
  cases i with
  | init => exact absurd rfl hi
  | nop => rw [exec_nop] at h ⊢; cases h; rfl
  | clear =>
    rw [exec_clear] at h ⊢
    exact gated_withSettings x (clearSession_withSettings params x s) h
  | firRun l =>
    rw [exec_firRun] at h ⊢
    exact gated_withSettings x (firRunEffect_withSettings params l x s) h
  | analyze =>
    rw [exec_analyze] at h ⊢
    exact gated_withSettings x (analyzeEffect_withSettings params x s) h
  | chunk =>
    rw [exec_chunk] at h ⊢
    exact gated_withSettings x (chunkEffect_withSettings params x s) h
  | candPush cnt lcnt =>
    rw [exec_candPush] at h ⊢
    exact gated_withSettings x (candPushEffect_withSettings params.cfg cnt lcnt x s) h
  | rsEnc d k =>
    rw [exec_rsEnc] at h ⊢
    exact gated_withSettings x (rsEncEffect_withSettings d k x s) h
  | rsDec d k =>
    rw [exec_rsDec] at h ⊢
    exact gated_withSettings x (rsDecEffect_withSettings d k x s) h
  | synth sym =>
    rw [exec_synth] at h ⊢
    exact gated_withSettings (effect := fun u => storeOut (toneBurst params u.latched sym) u) x rfl h

end Sys2Proof.Proofs
end

