-- ==== Sys2Proof/Proofs/Scope/Rounding.lean ====
section
/-! PROOFS. Rounding and saturation (00_scope R15), and the bin of a frequency (R17). -/

namespace Sys2Proof.Proofs

open Sys2Proof.Machine

/-- n is nearest to x, and even where x lies halfway between two integers (R15). -/
def NearestEven (x : Rat) (n : ℤ) : Prop := |x - n| < 1 / 2 ∨ (|x - n| = 1 / 2 ∧ Even n)

theorem NearestEven.dist_le {x : Rat} {n : ℤ} (h : NearestEven x n) : |x - n| ≤ 1 / 2 :=
  h.elim le_of_lt fun h => h.1.le

/-- Halfway between two integers, the nearest one meant is even. -/
theorem NearestEven.even_of_tie {x : Rat} {n : ℤ} (h : NearestEven x n) (hd : |x - n| = 1 / 2) : Even n :=
  h.elim (fun hlt => absurd hd hlt.ne) And.right

/-- Of two nearest integers, neither is above the other: they would be neighbours with x halfway, and both even. -/
theorem NearestEven.le {x : Rat} {m n : ℤ} (hm : NearestEven x m) (hn : NearestEven x n) : n ≤ m := by
  by_contra! hlt
  have hlt' : (m : Rat) + 1 ≤ n := by exact_mod_cast hlt
  have hxm : x - m ≤ 1 / 2 := (abs_le.mp hm.dist_le).2
  have hxn : -(1 / 2) ≤ x - n := (abs_le.mp hn.dist_le).1
  have hnm : n = m + 1 := by
    have : (n : Rat) = m + 1 := by linarith
    exact_mod_cast this
  have hx : x - m = 1 / 2 := by linarith
  have hx' : x - n = -(1 / 2) := by linarith
  have hem : Even m := hm.even_of_tie (by rw [hx]; norm_num)
  have hen : Even n := hn.even_of_tie (by rw [hx']; norm_num)
  rw [hnm, Int.even_add_one] at hen
  exact hen hem

theorem NearestEven.unique {x : Rat} {m n : ℤ} (hm : NearestEven x m) (hn : NearestEven x n) : m = n :=
  le_antisymm (hn.le hm) (hm.le hn)

theorem nearestEven_rne (x : Rat) : NearestEven x (rne x) := by
  have hlo : (x.floor : Rat) ≤ x := Int.floor_le x
  have hhi : x < x.floor + 1 := Int.lt_floor_add_one x
  unfold rne NearestEven
  simp only
  split
  · left
    rw [abs_lt]
    constructor <;> linarith
  · split
    · left
      push_cast
      rw [abs_lt]
      constructor <;> linarith
    · have hd : x - x.floor = 1 / 2 := by linarith
      right
      split
      · rename_i heven
        exact ⟨by rw [hd]; norm_num, Int.even_iff.mpr heven⟩
      · rename_i hodd
        refine ⟨?_, by rw [Int.even_add_one, Int.even_iff]; exact hodd⟩
        push_cast
        rw [← sub_sub, hd]
        norm_num

theorem sat16_eq_clamp (v : ℤ) : sat16 v = max (-32768) (min 32767 v) := by
  unfold sat16
  split_ifs <;> omega

/-- Settles O19: rne gives a nearest integer, ties to even, and there is only one. -/
theorem roundingAndSaturation : Obligations.RoundingAndSaturation := by
  refine ⟨fun x n => ⟨?_, fun hn => (nearestEven_rne x).unique hn⟩, sat16_eq_clamp⟩
  rintro rfl
  exact nearestEven_rne x

/-! ### The bin of a frequency (R17) -/

theorem rate_pos (b : Band) : 0 < rate b := by cases b <;> decide

/-- Adding half the divisor before an integer division adds 1/2 before the floor. -/
theorem binOfFreq_eq_floor (fft r f : Nat) (hr : 0 < r) :
    ((binOfFreq fft r f : Nat) : ℤ) = ⌊(f : ℚ) * fft / r + 1 / 2⌋ := by
  have hr' : (r : ℚ) ≠ 0 := by exact_mod_cast hr.ne'
  have hsum : (f : ℚ) * fft / r + 1 / 2 = ((2 * f * fft + r : Nat) : ℚ) / ((2 * r : Nat) : ℚ) := by
    push_cast
    field_simp
  rw [hsum, Rat.floor_natCast_div_natCast, binOfFreq, Int.natCast_div]

/-- Settles O20. -/
theorem binOfAFrequencyIsRounded : Obligations.BinOfAFrequencyIsRounded :=
  fun c b f => ⟨rfl, binOfFreq_eq_floor (fftSize c b) (rate b) f (rate_pos b)⟩

end Sys2Proof.Proofs
end

