-- ==== Sys2Proof/Proofs/Scope/Classify.lean ====
section
/-! PROOFS. classify (45_decoder R259) gives the least symbol of minimal distance, and so the symbol of an exact bin. -/

namespace Sys2Proof.Proofs

open Sys2Proof.Machine

/-! ### The least index of minimal value -/

/-- s is below n, no index below n has a smaller value, and every smaller index has a greater one. -/
structure FirstMin (d : Nat → Nat) (n s : Nat) : Prop where
  lt : s < n
  le : ∀ j, j < n → d s ≤ d j
  first : ∀ j, j < s → d s < d j

theorem FirstMin.unique {d : Nat → Nat} {n s t : Nat} (hs : FirstMin d n s) (ht : FirstMin d n t) : s = t := by
  rcases lt_trichotomy s t with hlt | heq | hgt
  · exact absurd (hs.le t ht.lt) (not_le.mpr (ht.first s hlt))
  · exact heq
  · exact absurd (ht.le s hs.lt) (not_le.mpr (hs.first t hgt))

/-- One more index: it is the first minimum when its value is below the one so far. -/
theorem FirstMin.succ {d : Nat → Nat} {n s : Nat} (h : FirstMin d n s) :
    FirstMin d (n + 1) (if d n < d s then n else s) := by
  obtain ⟨hlt, hle, hfirst⟩ := h
  split
  · rename_i hn
    refine ⟨n.lt_succ_self, fun j hj => ?_, fun j hj => lt_of_lt_of_le hn (hle j hj)⟩
    rcases Nat.lt_succ_iff_lt_or_eq.mp hj with hj | rfl
    · exact (hn.trans_le (hle j hj)).le
    · exact le_rfl
  · rename_i hn
    refine ⟨hlt.trans n.lt_succ_self, fun j hj => ?_, hfirst⟩
    rcases Nat.lt_succ_iff_lt_or_eq.mp hj with hj | rfl
    · exact hle j hj
    · exact not_lt.mp hn

/-- The scan of classify over the indices below n + 1 finds the first minimum. -/
theorem firstMin_foldl_range (d : Nat → Nat) (n : Nat) :
    FirstMin d (n + 1) ((List.range (n + 1)).foldl (fun best s => if d s < d best then s else best) 0) := by
  induction n with
  | zero =>
    refine ⟨by simp, fun j hj => ?_, fun j hj => ?_⟩
    · obtain rfl : j = 0 := by omega
      simp
    · simp at hj
  | succ n ih =>
    rw [List.range_succ, List.foldl_append]
    exact ih.succ

/-! ### classify -/

/-- The distance of a bin from the frequency of symbol s, scaled by FFT_SIZE × FS (R259). -/
def toneDist (c : Cfg) (b : Band) (fs x s : Nat) : Nat := binDist (x * fs) (freqOf c b s * fftSize c b)

/-- classify gives the least symbol of minimal distance (R259). -/
theorem classify_firstMin (c : Cfg) (b : Band) (fs x : Nat) : FirstMin (toneDist c b fs x) 16 (classify c b fs x) :=
  firstMin_foldl_range (toneDist c b fs x) 15

/-! ### The bins of a valid configuration -/

theorem bandValid_of_cfgValid {c : Cfg} (hc : cfgValid c = true) (b : Band) : bandValid b (bandCfg c b) = true := by
  simp only [cfgValid, Bool.and_eq_true] at hc
  obtain ⟨⟨⟨⟨hlow, hmid⟩, hhigh⟩, -⟩, -⟩ := hc
  cases b with
  | low => exact hlow
  | mid => exact hmid
  | high => exact hhigh

/-- GUARD is at least 1 (R6). -/
theorem guardBins_pos {c : Cfg} (hc : cfgValid c = true) (b : Band) : 1 ≤ guardBins c b := by
  have h := bandValid_of_cfgValid hc b
  simp only [bandValid, Bool.and_eq_true, decide_eq_true_eq] at h
  obtain ⟨⟨⟨-, hguard⟩, -⟩, -⟩ := h
  exact hguard

/-- The bins of neighbouring symbols are at least GUARD apart (R6). -/
theorem symbolBin_add_guard_le {c : Cfg} (hc : cfgValid c = true) (b : Band) {s : Nat} (hs : s < 15) :
    symbolBin c b s + guardBins c b ≤ symbolBin c b (s + 1) := by
  have h := bandValid_of_cfgValid hc b
  simp only [bandValid, Bool.and_eq_true, List.all_eq_true, List.mem_range, decide_eq_true_eq] at h
  obtain ⟨⟨⟨⟨-, hgap⟩, -⟩, -⟩, -⟩ := h
  exact (hgap s hs).2

/-- So the bins rise strictly with the symbol. -/
theorem symbolBin_lt {c : Cfg} (hc : cfgValid c = true) (b : Band) {s t : Nat} (hst : s < t) (ht : t < 16) :
    symbolBin c b s < symbolBin c b t := by
  have hstep (u : Nat) (hu : u < 15) : symbolBin c b u < symbolBin c b (u + 1) :=
    (Nat.lt_add_of_pos_right (guardBins_pos hc b)).trans_le (symbolBin_add_guard_le hc b hu)
  induction t, hst using Nat.le_induction with
  | base => exact hstep s (by omega)
  | succ t _ ih => exact (ih (by omega)).trans (hstep t (by omega))

/-! ### The bin of a symbol is nearest to that symbol -/

/-- A bin is less than half a bin below its frequency, and at most half a bin above it (R17). -/
theorem binOfFreq_bounds (fft r f : Nat) (hr : 0 < r) :
    2 * (binOfFreq fft r f * r) ≤ 2 * (f * fft) + r ∧ 2 * (f * fft) + r < 2 * (binOfFreq fft r f * r) + 2 * r := by
  have hle := Nat.div_mul_le_self (2 * f * fft + r) (2 * r)
  have hlt := Nat.lt_div_mul_add (a := 2 * f * fft + r) (b := 2 * r) (by omega)
  change binOfFreq fft r f * (2 * r) ≤ _ at hle
  change _ < binOfFreq fft r f * (2 * r) + _ at hlt
  rw [Nat.mul_left_comm] at hle hlt
  rw [Nat.mul_assoc 2 f fft] at hle hlt
  exact ⟨hle, hlt⟩

/-- At the bin of symbol s, the frequency of s is nearer than those of the symbols with a smaller bin, and no farther
than those of the symbols with a greater one: half a bin away at most, where they are half a bin away at least. -/
theorem toneDist_symbolBin (c : Cfg) (b : Band) (s t : Nat) :
    (symbolBin c b t < symbolBin c b s →
      toneDist c b (rate b) (symbolBin c b s) s < toneDist c b (rate b) (symbolBin c b s) t)
    ∧ (symbolBin c b s < symbolBin c b t →
      toneDist c b (rate b) (symbolBin c b s) s ≤ toneDist c b (rate b) (symbolBin c b s) t) := by
  have hs : 2 * (symbolBin c b s * rate b) ≤ 2 * (freqOf c b s * fftSize c b) + rate b
      ∧ 2 * (freqOf c b s * fftSize c b) + rate b < 2 * (symbolBin c b s * rate b) + 2 * rate b :=
    binOfFreq_bounds _ _ _ (rate_pos b)
  have ht : 2 * (symbolBin c b t * rate b) ≤ 2 * (freqOf c b t * fftSize c b) + rate b
      ∧ 2 * (freqOf c b t * fftSize c b) + rate b < 2 * (symbolBin c b t * rate b) + 2 * rate b :=
    binOfFreq_bounds _ _ _ (rate_pos b)
  have apart {x y : Nat} (hxy : x < y) : x * rate b + rate b ≤ y * rate b := by
    rw [← Nat.succ_mul]
    exact Nat.mul_le_mul_right (rate b) hxy
  unfold toneDist binDist
  constructor
  · intro hlt
    have := apart hlt
    omega
  · intro hlt
    have := apart hlt
    omega

theorem symbol_firstMin_toneDist {c : Cfg} (hc : cfgValid c = true) (b : Band) {s : Nat} (hs : s < 16) :
    FirstMin (toneDist c b (rate b) (symbolBin c b s)) 16 s where
  lt := hs
  le j hj := by
    rcases lt_trichotomy j s with hjs | rfl | hsj
    · exact ((toneDist_symbolBin c b s j).1 (symbolBin_lt hc b hjs hs)).le
    · exact le_rfl
    · exact (toneDist_symbolBin c b s j).2 (symbolBin_lt hc b hsj hj)
  first j hjs := (toneDist_symbolBin c b s j).1 (symbolBin_lt hc b hjs hs)

/-- Settles O33: both the symbol and its classification are the first minimum of the same distances. -/
theorem classifyRecoversTheSymbol : Obligations.ClassifyRecoversTheSymbol :=
  fun c b s hc hs => (classify_firstMin c b (rate b) (symbolBin c b s)).unique (symbol_firstMin_toneDist hc b hs)

end Sys2Proof.Proofs
end

/-! PROOFS. What a command, a host access and a step can do, said once: the states each of them can end in. -/

namespace Sys2Proof.Proofs

open Sys2Proof.Machine

/-! ### Commands -/

/-- The states in which a command of the state `s` can end (60_exceptions R301, R306): an error report, or its effect,
which a command that needs READY reaches only while READY = 1. -/
inductive CommandEnd (s : State) : Instr → State → Prop where
  | error (i : Instr) (c : ErrCode) : CommandEnd s i (report c s)
  | nop : CommandEnd s .nop s
  | initFailed : CommandEnd s .init (report .cfgInvalid { s with ready := false })
  | init (b : Band) (hok : settingsOk b s.settings = true) : CommandEnd s .init (initSession params b s)
  | clear (hr : s.ready = true) : CommandEnd s .clear (clearSession params s)
  | firRun (l : Nat) (hr : s.ready = true) : CommandEnd s (.firRun l) (firRunEffect params l s)
  | analyze (hr : s.ready = true) : CommandEnd s .analyze (analyzeEffect params s)
  | chunk (hr : s.ready = true) : CommandEnd s .chunk (chunkEffect params s)
  | candPush (cnt lcnt : Nat) (hr : s.ready = true) :
      CommandEnd s (.candPush cnt lcnt) (candPushEffect params.cfg cnt lcnt s)
  | rsEnc (d k : Nat) : CommandEnd s (.rsEnc d k) (rsEncEffect d k s)
  | rsDec (d k : Nat) : CommandEnd s (.rsDec d k) (rsDecEffect d k s)
  | synth (sym : Nat) (hr : s.ready = true) :
      CommandEnd s (.synth sym) (storeOut (toneBurst params s.latched sym) s)

/-- A gated command ends in an error report or in its effect. -/
theorem CommandEnd.of_gated {i : Instr} {needs bad : Bool} {s go t : State} (h : gated needs bad s go = .next t)
    (hgo : (needs = true → s.ready = true) → CommandEnd s i go) : CommandEnd s i t := by
  rcases gated_cases needs bad s go with ⟨-, -, hg⟩ | ⟨-, -, hg⟩ | ⟨hr, -, hg⟩ <;> rw [hg] at h <;> cases h
  · exact .error i .notReady
  · exact .error i .badArg
  · exact hgo fun hn => by simpa [hn] using hr

/-- INIT latches settings that pass validation, or fails (40_control R131, R132). -/
theorem initWith_end {s t : State} (h : initWith params s = .next t) : CommandEnd s .init t := by
  unfold initWith initFailed raise at h
  split at h
  · cases h; exact .initFailed
  · split at h <;> cases h
    · exact .init _ ‹_›
    · exact .initFailed

theorem exec_end {i : Instr} {s t : State} (h : exec i s = .next t) : CommandEnd s i t := by
  cases i with
  | nop => cases h; exact .nop
  | init => exact initWith_end h
  | clear => exact .of_gated (exec_clear s ▸ h) fun hr => .clear (hr rfl)
  | firRun l => exact .of_gated (exec_firRun l s ▸ h) fun hr => .firRun l (hr rfl)
  | analyze => exact .of_gated (exec_analyze s ▸ h) fun hr => .analyze (hr rfl)
  | chunk => exact .of_gated (exec_chunk s ▸ h) fun hr => .chunk (hr rfl)
  | candPush cnt lcnt => exact .of_gated (exec_candPush cnt lcnt s ▸ h) fun hr => .candPush cnt lcnt (hr rfl)
  | rsEnc d k => exact .of_gated (exec_rsEnc d k s ▸ h) fun _ => .rsEnc d k
  | rsDec d k => exact .of_gated (exec_rsDec d k s ▸ h) fun _ => .rsDec d k
  | synth sym => exact .of_gated (exec_synth sym s ▸ h) fun hr => .synth sym (hr rfl)

/-! ### Host accesses -/

/-- The moves of the error record: none, a report (60_exceptions R305), or an acknowledgment (R313). -/
inductive ErrorsMoved (s t : State) : Prop where
  | kept (h : KeepsErrors s t)
  | reported (c : ErrCode) (h : KeepsErrors (report c s) t)
  | acknowledged (v : Word) (h : KeepsErrors (ackErrors v s) t)

/-- What every host access does to the session and the error record (20_memory R84, R87). -/
structure AccessFrame (s t : State) : Prop where
  latch : KeepsLatch s t
  session : t.session = s.session
  errors : ErrorsMoved s t

theorem AccessFrame.of_keeps {s t : State} (hl : KeepsLatch s t) (hs : t.session = s.session) (he : KeepsErrors s t) :
    AccessFrame s t := ⟨hl, hs, .kept he⟩

theorem report_accessFrame (c : ErrCode) (s : State) : AccessFrame s (report c s) :=
  ⟨⟨rfl, rfl, rfl⟩, rfl, .reported c (.refl _)⟩

theorem issueCommand_accessFrame (w : Word) (s : State) : AccessFrame s (issueCommand w s) := by
  unfold issueCommand
  split
  · exact report_accessFrame .busy s
  · exact .of_keeps ⟨rfl, rfl, rfl⟩ rfl ⟨rfl, rfl⟩

/-- The frame depends on neither the schedule nor the bus answer. -/
theorem AccessFrame.congr {s s' t t' : State} (h : AccessFrame s t)
    (hs : s' = { s with events := s'.events, bus := s'.bus })
    (ht : t' = { t with events := t'.events, bus := t'.bus }) : AccessFrame s' t' := by
  rw [hs, ht]
  obtain ⟨⟨hr, hl, hh⟩, hsess, herr⟩ := h
  refine ⟨⟨hr, hl, hh⟩, hsess, ?_⟩
  cases herr with
  | kept h => exact .kept ⟨h.errFlags, h.errCode⟩
  | reported c h => exact .reported c ⟨h.errFlags, h.errCode⟩
  | acknowledged v h => exact .acknowledged v ⟨h.errFlags, h.errCode⟩

theorem answer_accessFrame (d : Word) (e : Bool) (s : State) : AccessFrame s (answer d e s) :=
  .of_keeps ⟨rfl, rfl, rfl⟩ rfl ⟨rfl, rfl⟩

theorem busError_accessFrame (s : State) : AccessFrame s (busError s) :=
  (report_accessFrame .bus s).congr rfl rfl

/-- A register write (10_state R34 to R55): ERR_FLAGS acknowledges, CMD may report BUSY, and every other register leaves
the error record alone. -/
theorem writeReg_accessFrame {r : Reg} {a : Offset} {v : Word} {s t : State} (h : writeReg r a v s = .next t) :
    AccessFrame s t := by
  cases r with
  | cmd => cases h; exact issueCommand_accessFrame v s
  | errFlags => cases h; exact ⟨⟨rfl, rfl, rfl⟩, rfl, .acknowledged v (.refl _)⟩
  | candIn | lagIn =>
    simp only [writeReg] at h
    split at h
    · cases h
    · cases h; exact .of_keeps ⟨rfl, rfl, rfl⟩ rfl ⟨rfl, rfl⟩
  | _ => cases h; exact .of_keeps ⟨rfl, rfl, rfl⟩ rfl ⟨rfl, rfl⟩

theorem bufferWrite_accessFrame {a : Offset} {n : AccessSize} {v : Word} {s t : State}
    (h : bufferWrite a n v s = .next t) : AccessFrame s t := by
  unfold bufferWrite at h
  split at h
  · cases h
  · cases h; exact .of_keeps ⟨rfl, rfl, rfl⟩ rfl ⟨rfl, rfl⟩

theorem hostWriteEffect_accessFrame {a : Offset} {n : AccessSize} {v : Word} {s t : State}
    (h : hostWriteEffect a n v s = .next t) : AccessFrame s t := by
  unfold hostWriteEffect at h
  cases hreg : regionOf a.toNat <;> simp only [hreg] at h
  case registers =>
    split at h
    · exact writeReg_accessFrame h
    · cases h; exact busError_accessFrame s
  case cwBuf | inBuf | outBuf => exact bufferWrite_accessFrame h
  case payload => cases h; exact .of_keeps (.refl s) rfl (.refl s)
  case reserved => cases h; exact busError_accessFrame s

theorem hostWrite_accessFrame {a : Offset} {n : AccessSize} {v : Word} {s t : State}
    (h : hostWrite a n v s = .next t) : AccessFrame s t := by
  unfold hostWrite at h
  split at h
  · exact (hostWriteEffect_accessFrame h).congr rfl rfl
  · cases h; exact busError_accessFrame s

/-- A read answers the bus, or reports a BUS error (20_memory R83, R87). -/
theorem hostRead_accessFrame {a : Offset} {n : AccessSize} {s t : State} (h : hostRead a n s = .next t) :
    AccessFrame s t := by
  unfold hostRead at h
  split at h
  · cases hreg : regionOf a.toNat <;> simp only [hreg] at h
    case registers =>
      split at h <;> cases h
      · exact answer_accessFrame _ _ s
      · exact busError_accessFrame s
    case cwBuf | outBuf =>
      split at h <;> cases h
      exact answer_accessFrame _ _ s
    case payload | inBuf => cases h; exact answer_accessFrame _ _ s
    case reserved => cases h; exact busError_accessFrame s
  · cases h; exact busError_accessFrame s

/-! ### Steps -/

/-- The states in which a step from `s` can end (20_memory R89, 60_exceptions R303, 70_reset R340); `rest` is the schedule
left over. -/
inductive StepEnd (s : State) : State → Prop where
  | reset (rest : List Event) (he : s.events = .reset :: rest) : StepEnd s (resetInput { s with events := rest })
  | access (t : State) (h : AccessFrame s t) : StepEnd s t
  | idle (rest : List Event) : StepEnd s { s with events := rest }
  | decodeError (rest : List Event) (c : ErrCode) : StepEnd s (complete (report c { s with events := rest }))
  | command (rest : List Event) (i : Instr) (t : State) (hc : CoreIsNext s) (hb : s.busy = true)
      (hd : decode s.pend = .ok i) (ht : CommandEnd { s with events := rest } i t) : StepEnd s (complete t)

/-- The core's turn (60_exceptions R303), with the schedule `rest` left over. -/
theorem coreTurn_end {s t : State} (hc : CoreIsNext s) (rest : List Event)
    (h : coreTurn { s with events := rest } = .next t) : StepEnd s t := by
  unfold coreTurn coreStep runCommand at h
  split at h
  · next hb =>
    split at h
    · cases h; exact .decodeError rest .illegalOp
    · cases h; exact .decodeError rest .reservedField
    · next i hd =>
      cases hx : exec i { s with events := rest } with
      | next u => rw [hx] at h; cases h; exact .command rest i u hc hb hd (exec_end hx)
      | fault f => rw [hx] at h; cases h
      | refused r => rw [hx] at h; cases h
  · cases h; exact .idle rest

theorem step_end {s t : State} (h : step s = .next t) : StepEnd s t := by
  unfold step advance at h
  split at h
  · next he => exact coreTurn_end (.inl he) [] (by rw [← he]; exact h)
  · next e rest he =>
    cases e with
    | read a n => exact .access t ((hostRead_accessFrame h).congr rfl rfl)
    | write a n v => exact .access t ((hostWrite_accessFrame h).congr rfl rfl)
    | core => exact coreTurn_end (.inr ⟨rest, he⟩) rest h
    | reset => cases h; exact .reset rest he

end Sys2Proof.Proofs

/-! PROOFS. Which steps move the latch and the error record (10_state R43, R57, R59, R61). -/

namespace Sys2Proof.Proofs

open Sys2Proof.Machine

/-! ### Commands leave the error record and the latch alone -/

/-- The slot step of ANALYZE and CHUNK (43_spectral R210). -/
theorem analyzeValues_keeps (p : Params) (v : List Rat) (s : State) :
    KeepsErrors s (analyzeValues p v s) ∧ KeepsLatch s (analyzeValues p v s) := by
  have ⟨_, he, _, hl, _, _⟩ := slotStep_keeps p.cfg (payloadRecord p s.latched (pushWindow s.session.wb v))
    (lagRecord p s.latched (pushWindow s.session.wb v))
    { s with session := { s.session with wb := pushWindow s.session.wb v } }
  exact ⟨⟨he.errFlags, he.errCode⟩, ⟨hl.ready, hl.latched, hl.h⟩⟩

theorem chunkEffect_keeps (p : Params) (s : State) :
    KeepsErrors s (chunkEffect p s) ∧ KeepsLatch s (chunkEffect p s) := by
  have ⟨he, hl⟩ := analyzeValues_keeps p
    (firStream p.num s.h s.session.hist (inSamples s (chunkLen p.cfg s.latched.band))).1
    { s with session := { s.session with
        hist := (firStream p.num s.h s.session.hist (inSamples s (chunkLen p.cfg s.latched.band))).2 } }
  exact ⟨⟨he.errFlags, he.errCode⟩, ⟨hl.ready, hl.latched, hl.h⟩⟩

theorem candPushEffect_keeps (c : Cfg) (cnt lcnt : Nat) (s : State) :
    KeepsErrors s (candPushEffect c cnt lcnt s) ∧ KeepsLatch s (candPushEffect c cnt lcnt s) :=
  have ⟨_, he, _, hl, _, _⟩ := slotStep_keeps c (injectedRecord s.candIn cnt) (injectedRecord s.lagIn lcnt) s
  ⟨he, hl⟩

/-- RS_DEC writes CW and RESULT alone (41_reed_solomon R162). -/
theorem rsDecEffect_keeps (d k : Nat) (s : State) :
    KeepsErrors s (rsDecEffect d k s) ∧ KeepsLatch s (rsDecEffect d k s) ∧ (rsDecEffect d k s).session = s.session := by
  unfold rsDecEffect
  split <;> exact ⟨⟨rfl, rfl⟩, ⟨rfl, rfl, rfl⟩, rfl⟩

/-- A command reports at most one error (60_exceptions R306). -/
theorem CommandEnd.errorsMoved {s t : State} {i : Instr} (h : CommandEnd s i t) : ErrorsMoved s t := by
  cases h with
  | error _ c => exact .reported c (.refl _)
  | initFailed => exact .reported .cfgInvalid ⟨rfl, rfl⟩
  | analyze => exact .kept (analyzeValues_keeps params _ s).1
  | chunk => exact .kept (chunkEffect_keeps params s).1
  | candPush cnt lcnt => exact .kept (candPushEffect_keeps params.cfg cnt lcnt s).1
  | rsDec d k => exact .kept (rsDecEffect_keeps d k s).1
  | _ => exact .kept ⟨rfl, rfl⟩

/-- No command but INIT writes READY, L or H. -/
theorem CommandEnd.keepsLatch {s t : State} {i : Instr} (h : CommandEnd s i t) (hi : i ≠ .init) : KeepsLatch s t := by
  cases h with
  | init | initFailed => exact absurd rfl hi
  | analyze => exact (analyzeValues_keeps params _ s).2
  | chunk => exact (chunkEffect_keeps params s).2
  | candPush cnt lcnt => exact (candPushEffect_keeps params.cfg cnt lcnt s).2
  | rsDec d k => exact (rsDecEffect_keeps d k s).2.1
  | _ => exact ⟨rfl, rfl, rfl⟩

/-- Settles O60: a step is a reset, a host access, or a core step, and of the commands only INIT latches. -/
theorem onlyInitAndResetChangeTheLatch : Obligations.OnlyInitAndResetChangeTheLatch := by
  intro s t h
  cases step_end h with
  | reset rest he => exact .inr (.inl ⟨rest, he⟩)
  | access _ ha => exact .inl ha.latch
  | idle | decodeError => exact .inl ⟨rfl, rfl, rfl⟩
  | command rest i u hc hb hd hu =>
    by_cases hi : i = .init
    · exact .inr (.inr ⟨hb, hc, hi ▸ hd⟩)
    · have ⟨hr, hl, hh⟩ := hu.keepsLatch hi
      exact .inl ⟨hr, hl, hh⟩

/-! ### The error record stays consistent -/

theorem errorsConsistent_of_keeps {s t : State} (h : ErrorsConsistent s) (k : KeepsErrors s t) : ErrorsConsistent t := by
  unfold ErrorsConsistent
  rw [k.errFlags, k.errCode]
  exact h

/-- A report sets a flag, and leaves a code that is not 0: its own, or the first one (60_exceptions R305). -/
theorem report_errorsConsistent (c : ErrCode) {s : State} (h : ErrorsConsistent s) : ErrorsConsistent (report c s) := by
  have hcode : (report c s).errCode ≠ 0 := by
    rw [report_errCode]
    split
    · exact code_ne_zero c
    · next hf => exact fun he => hf (h.1 he)
  exact iff_of_false hcode (report_errFlags_ne_zero c s)

/-- A flag left after the acknowledgment was set before it, so the code that stays is not 0 (10_state R43). -/
theorem ackErrors_errorsConsistent (v : Word) {s : State} (h : ErrorsConsistent s) :
    ErrorsConsistent (ackErrors v s) := by
  rcases ackErrors_cases v s with ⟨hf, hc⟩ | ⟨hf, hc⟩
  · exact iff_of_true hc hf
  · refine iff_of_false (fun he => hf ?_) hf
    rw [ackErrors_errFlags, h.1 (hc ▸ he)]
    exact BitVec.zero_and

theorem ErrorsMoved.errorsConsistent {s t : State} (hm : ErrorsMoved s t) (h : ErrorsConsistent s) :
    ErrorsConsistent t := by
  cases hm with
  | kept k => exact errorsConsistent_of_keeps h k
  | reported c k => exact errorsConsistent_of_keeps (report_errorsConsistent c h) k
  | acknowledged v k => exact errorsConsistent_of_keeps (ackErrors_errorsConsistent v h) k

/-- Settles O55: every step but a reset moves the error record by reports and acknowledgments alone. -/
theorem stepKeepsTheErrorRecordConsistent : Obligations.StepKeepsTheErrorRecordConsistent := by
  intro s t h hstep
  cases step_end hstep with
  | reset rest _ => exact iff_of_true rfl rfl
  | access _ ha => exact ha.errors.errorsConsistent h
  | idle rest => exact h
  | decodeError rest c => exact report_errorsConsistent c (s := { s with events := rest }) h
  | command rest i u _ _ _ hu => exact hu.errorsMoved.errorsConsistent (s := { s with events := rest }) h

end Sys2Proof.Proofs

/-! PROOFS. The session invariant (10_state R61 to R66, 40_control R133, 45_decoder R255, R260) is kept by every step. While
READY = 1 it falls into three parts, each kept by what writes its fields: the latched settings, the window with the rings,
and the decoder's own fields. -/

namespace Sys2Proof.Proofs

open Sys2Proof.Machine

/-! ### The parts of the invariant -/

/-- The latched settings passed validation (40_control R132). -/
structure LatchShape (l : Latched) : Prop where
  fs : l.fs.toNat = rate l.band
  n : 2 ≤ l.n.toNat
  frame : l.n.toNat + l.k.toNat ≤ 253
  maxstr : 2 ≤ l.maxstr.toNat
  maxcomb : l.maxcomb ≠ 0

/-- The sizes of WB and the rings that INIT fixed (40_control R133), and of their records (00_scope R16). -/
structure WindowShape (c : Cfg) (l : Latched) (u : Session) : Prop where
  wb : u.wb.length = fftSize c l.band
  ring : u.ring.length = 8 * l.frameSlots
  lring : u.lring.length = 8 * l.frameSlots
  records : ∀ r ∈ u.ring, r.length ≤ 2
  lagRecords : ∀ r ∈ u.lring, r.length ≤ 2

/-- The bounds of the fields that the decoder step writes: HIST, DSTATE, PROG and PAY_LEN (45_decoder R255, R260). -/
structure DecoderShape (l : Latched) (u : Session) : Prop where
  hist : u.hist.length = 31
  idleProg : u.dstate ≠ .decoding → u.prog = 0
  prog : u.dstate = .decoding → u.prog < 8 * (l.frameSlots - 4)
  payLen : u.payLen.toNat ≤ l.maxstr.toNat
  payRoom : u.dstate ≠ .done → u.payLen.toNat ≤ l.maxstr.toNat - 1

/-- The invariant of a ready state, part by part. -/
structure ReadyShape (c : Cfg) (s : State) : Prop where
  h : s.h.length = 32
  latch : LatchShape s.latched
  window : WindowShape c s.latched s.session
  decoder : DecoderShape s.latched s.session

theorem readyShape_of_sessionInv {c : Cfg} {s : State} (hs : SessionInv c s) (hr : s.ready = true) : ReadyShape c s := by
  obtain ⟨hfix, hshape⟩ := hs
  have hs := hshape hr
  exact ⟨hfix.h, ⟨hs.fs, hs.n, hs.frame, hs.maxstr, hs.maxcomb⟩,
    ⟨hs.wb, hs.ring, hs.lring, hs.records, hs.lagRecords⟩, ⟨hfix.hist, hfix.prog, hs.prog, hs.payLen, hs.payRoom⟩⟩

theorem ReadyShape.sessionInv {c : Cfg} {s : State} (hs : ReadyShape c s) : SessionInv c s := by
  obtain ⟨hh, hl, hw, hd⟩ := hs
  exact ⟨⟨hh, hd.hist, hd.idleProg⟩, fun _ => ⟨hl.fs, hl.n, hl.frame, hl.maxstr, hl.maxcomb, hw.wb, hw.ring, hw.lring,
    hw.records, hw.lagRecords, hd.payLen, hd.payRoom, hd.prog⟩⟩

/-- The invariant speaks of READY, L, H and the session alone. -/
theorem sessionInv_congr {c : Cfg} {s t : State} (h : SessionInv c s) (hl : KeepsLatch s t)
    (hs : t.session = s.session) : SessionInv c t := by
  have ht : t = { t with ready := s.ready, latched := s.latched, h := s.h, session := s.session } := by
    rw [← hl.ready, ← hl.latched, ← hl.h, ← hs]
  rw [ht]
  exact ⟨{ h.1 with }, fun hr => { h.2 hr with }⟩

/-! ### The decoder step -/

/-- A frame holds more than the four sync slots (45_decoder R255). -/
theorem LatchShape.frameSlots_gt {l : Latched} (hl : LatchShape l) : 4 < l.frameSlots := by
  have := hl.n
  unfold Latched.frameSlots Latched.frameBytes
  omega

section
variable {l : Latched} {s : State}

theorem acquire_decoderShape (hl : LatchShape l) (h : DecoderShape l s.session) (hd : s.session.dstate ≠ .done) :
    DecoderShape l (acquire s).session where
  hist := by
    rw [acquire_session_hist]
    split
    · exact List.length_replicate
    · exact h.hist
  idleProg _ := rfl
  prog _ := by
    have := hl.frameSlots_gt
    rw [acquire_session_prog]
    omega
  payLen := h.payLen
  payRoom _ := h.payRoom hd

theorem seekSync_decoderShape (c : Cfg) (hl : LatchShape l) (h : DecoderShape l s.session)
    (hd : s.session.dstate ≠ .done) : DecoderShape l (seekSync c s).session := by
  unfold seekSync
  split
  · exact acquire_decoderShape hl h hd
  · exact h

/-- PAY_LEN + 1 does not wrap while there is room for the byte. -/
theorem payLen_succ_toNat {p : BitVec 9} {m : Byte} (h : p.toNat ≤ m.toNat) : (p + 1).toNat = p.toNat + 1 := by
  bv_omega

/-- The payload loop of accept (45_decoder R260): text stops at MAXSTR − 1 bytes, so that the NUL has room. -/
theorem appendPayload_decoderShape (bs : List Byte) (hs : s.latched = l) (hl : LatchShape l)
    (hh : s.session.hist.length = 31) (hp : s.session.prog = 0) (hr : s.session.payLen.toNat ≤ l.maxstr.toNat - 1) :
    DecoderShape l (appendPayload bs s).session := by
  have hm := hl.maxstr
  induction bs generalizing s with
  | nil => exact ⟨hh, fun _ => hp, nofun, hr.trans (Nat.sub_le _ _), fun _ => hr⟩
  | cons b bs ih =>
    have hsucc := payLen_succ_toNat (p := s.session.payLen) (m := l.maxstr) (by omega)
    unfold appendPayload
    simp only [storePay_session, hs]
    split
    · exact ⟨hh, fun _ => hp, nofun, by simp only [setDoneIrq_session]; omega, fun hd => absurd rfl hd⟩
    · split
      · exact ih (by simp only [storePay_latched, hs]) hh hp (by simp only; omega)
      · exact ih rfl hh hp hr

/-- A frame attempt (45_decoder R256). -/
theorem frameAttempt_decoderShape (c : Cfg) (hs : s.latched = l) (hl : LatchShape l)
    (hh : s.session.hist.length = 31) (hr : s.session.payLen.toNat ≤ l.maxstr.toNat - 1) :
    DecoderShape l (frameAttempt c s).session := by
  unfold frameAttempt
  simp only
  split
  · exact ⟨hh, fun _ => rfl, nofun, hr.trans (Nat.sub_le _ _), fun _ => hr⟩
  · exact appendPayload_decoderShape _ hs hl hh rfl hr

/-- The decoder step in each of the decoder's states (45_decoder R252). -/
theorem decoderStep_decoderShape (c : Cfg) (hs : s.latched = l) (hl : LatchShape l) (h : DecoderShape l s.session) :
    DecoderShape l (decoderStep c s).session := by
  cases hd : s.session.dstate with
  | done => simpa only [decoderStep, hd] using h
  | awaitingSync =>
    simp only [decoderStep, hd]
    exact seekSync_decoderShape c hl h (by simp [hd])
  | frameComplete =>
    simp only [decoderStep, hd]
    refine seekSync_decoderShape c hl ?_ nofun
    exact ⟨h.hist, fun _ => h.idleProg (by simp [hd]), nofun, h.payLen, fun _ => h.payRoom (by simp [hd])⟩
  | decoding =>
    have hlt := h.prog hd
    have hr := h.payRoom (by simp [hd])
    simp only [decoderStep, hd, hs]
    split
    · exact acquire_decoderShape hl h (by simp [hd])
    · split
      · exact frameAttempt_decoderShape c rfl hl h.hist hr
      · exact ⟨h.hist, fun hne => absurd rfl hne, fun _ => by simp only; omega, h.payLen, fun _ => hr⟩

end

/-! ### Records have at most two bins (00_scope R16) -/

theorem selectRecord_length (power : Nat → Rat) (lo hi guard : Nat) (abs rel : Rat) :
    (selectRecord power lo hi guard abs rel).length ≤ 2 := by
  unfold selectRecord
  simp only
  split
  · exact Nat.zero_le 2
  · split
    · split
      · exact Nat.le_succ 1
      · split
        · exact le_rfl
        · exact Nat.le_succ 1
    · exact Nat.zero_le 2

theorem payloadRecord_length (p : Params) (l : Latched) (wb : List Rat) : (payloadRecord p l wb).length ≤ 2 :=
  selectRecord_length _ _ _ _ _ _

theorem lagRecord_length (p : Params) (l : Latched) (wb : List Rat) : (lagRecord p l wb).length ≤ 2 := by
  unfold lagRecord
  split
  · exact selectRecord_length _ _ _ _ _ _
  · exact Nat.zero_le 2

theorem injectedRecord_length (reg : Word) (cnt : Nat) : (injectedRecord reg cnt).length ≤ 2 :=
  List.length_take_le' _ _

theorem shiftRing_records {ring : List Record} {r : Record} (h : ∀ x ∈ ring, x.length ≤ 2) (hr : r.length ≤ 2) :
    ∀ x ∈ shiftRing ring r, x.length ≤ 2 := by
  intro x hx
  rcases List.mem_append.1 (List.mem_of_mem_drop hx) with hx | hx
  · exact h x hx
  · rwa [List.mem_singleton.1 hx]

/-! ### The commands -/

/-- A slot step (43_spectral R210) moves the rings by one record, then makes the decoder step. -/
theorem slotStep_readyShape {c : Cfg} {rp rl : Record} {s : State} (h : ReadyShape c s) (hp : rp.length ≤ 2)
    (hl : rl.length ≤ 2) : ReadyShape c (slotStep c rp rl s) := by
  obtain ⟨hh, hlat, hw, hd⟩ := h
  have hf := slotStep_frame c rp rl s
  have hL : (slotStep c rp rl s).latched = s.latched := hf.latch.latched
  constructor
  case h => rw [hf.latch.h]; exact hh
  case latch => rw [hL]; exact hlat
  case window =>
    rw [hL]
    constructor
    case wb => rw [hf.wb]; exact hw.wb
    case ring => rw [hf.ring]; exact (shiftRing_length _ rp).trans hw.ring
    case lring => rw [hf.lring]; exact (shiftRing_length _ rl).trans hw.lring
    case records => rw [hf.ring]; exact shiftRing_records hw.records hp
    case lagRecords => rw [hf.lring]; exact shiftRing_records hw.lagRecords hl
  case decoder =>
    rw [hL]
    exact decoderStep_decoderShape c rfl hlat { hd with }

theorem analyzeValues_readyShape {p : Params} {s : State} (v : List Rat) (h : ReadyShape p.cfg s) :
    ReadyShape p.cfg (analyzeValues p v s) := by
  refine slotStep_readyShape ?_ (payloadRecord_length p _ _) (lagRecord_length p _ _)
  exact { h with
    window := { h.window with wb := (pushWindow_length _ v).trans h.window.wb }
    decoder := { h.decoder with } }

/-- A filter history of the same length keeps the shape (42_fir R183). -/
theorem withHist_readyShape {c : Cfg} {s : State} (h : ReadyShape c s) {hist : List Half}
    (hl : hist.length = s.session.hist.length) :
    ReadyShape c { s with session := { s.session with hist := hist } } :=
  { h with
    window := { h.window with }
    decoder := { h.decoder with hist := hl.trans h.decoder.hist } }

theorem firRunEffect_readyShape {p : Params} {s : State} (l : Nat) (h : ReadyShape p.cfg s) :
    ReadyShape p.cfg (firRunEffect p l s) :=
  { withHist_readyShape h (firStream_lengths p.num s.h s.session.hist (inSamples s l)).2 with }

theorem chunkEffect_readyShape {p : Params} {s : State} (h : ReadyShape p.cfg s) :
    ReadyShape p.cfg (chunkEffect p s) :=
  analyzeValues_readyShape _ (withHist_readyShape h (firStream_lengths p.num s.h s.session.hist _).2)

/-- A fresh session (40_control R134) of valid latched settings. -/
theorem readyShape_of_fresh {c : Cfg} {s : State} (hh : s.h.length = 32) (hl : LatchShape s.latched)
    (hs : s.session = Session.fresh (fftSize c s.latched.band) s.latched.ringLen) : ReadyShape c s where
  h := hh
  latch := hl
  window := by
    rw [hs]
    have empty : ∀ r ∈ List.replicate s.latched.ringLen ([] : Record), r.length ≤ 2 :=
      fun r hr => by simp [List.eq_of_mem_replicate hr]
    exact ⟨List.length_replicate, List.length_replicate, List.length_replicate, empty, empty⟩
  decoder := by
    rw [hs]
    exact ⟨List.length_replicate, fun _ => rfl, nofun, Nat.zero_le _, fun _ => Nat.zero_le _⟩

/-- INIT latches what it validated (40_control R132, R133). -/
theorem latch_latchShape {b : Band} {t : Settings} (h : settingsOk b t = true) : LatchShape (latch b t) := by
  simp only [settingsOk, Bool.and_eq_true, decide_eq_true_eq] at h
  obtain ⟨⟨⟨⟨hfs, hn⟩, hframe⟩, hmaxstr⟩, hmaxcomb⟩ := h
  exact ⟨hfs, hn, hframe, hmaxstr, hmaxcomb⟩

theorem coefficients_length (p : Params) (l : Latched) : (coefficients p l).length = 32 := by
  simp [coefficients, firTaps]

theorem CommandEnd.sessionInv {s t : State} {i : Instr} (h : CommandEnd s i t) (hs : SessionInv params.cfg s) :
    SessionInv params.cfg t := by
  cases h with
  | error _ c => exact sessionInv_congr hs ⟨rfl, rfl, rfl⟩ rfl
  | nop => exact hs
  | initFailed => exact ⟨{ hs.1 with }, nofun⟩
  | init b hok => exact (readyShape_of_fresh (coefficients_length params _) (latch_latchShape hok) rfl).sessionInv
  | clear hr =>
    have hr := readyShape_of_sessionInv hs hr
    exact (readyShape_of_fresh (s := clearSession params s) hr.h hr.latch rfl).sessionInv
  | firRun l hr => exact (firRunEffect_readyShape l (readyShape_of_sessionInv hs hr)).sessionInv
  | analyze hr => exact (analyzeValues_readyShape _ (readyShape_of_sessionInv hs hr)).sessionInv
  | chunk hr => exact (chunkEffect_readyShape (readyShape_of_sessionInv hs hr)).sessionInv
  | candPush cnt lcnt hr =>
    exact (slotStep_readyShape (readyShape_of_sessionInv hs hr) (injectedRecord_length _ cnt)
      (injectedRecord_length _ lcnt)).sessionInv
  | rsEnc d k => exact sessionInv_congr hs ⟨rfl, rfl, rfl⟩ rfl
  | rsDec d k =>
    have ⟨_, hl, hsess⟩ := rsDecEffect_keeps d k s
    exact sessionInv_congr hs hl hsess
  | synth sym => exact sessionInv_congr hs ⟨rfl, rfl, rfl⟩ rfl

/-- The reset values (70_reset R340): READY = 0, and H and HIST at their sizes. -/
theorem resetInput_sessionInv (c : Cfg) (s : State) : SessionInv c (resetInput s) :=
  ⟨⟨List.length_replicate, List.length_replicate, fun _ => rfl⟩, nofun⟩

/-- Settles O54: reset and every command keep the parts of the invariant, and a host access touches none of them. -/
theorem stepKeepsTheSessionInvariant : Obligations.StepKeepsTheSessionInvariant := by
  intro s t h hstep
  cases step_end hstep with
  | reset rest _ => exact resetInput_sessionInv _ _
  | access _ ha => exact sessionInv_congr h ha.latch ha.session
  | idle rest => exact sessionInv_congr h ⟨rfl, rfl, rfl⟩ rfl
  | decodeError rest c => exact sessionInv_congr h ⟨rfl, rfl, rfl⟩ rfl
  | command rest i u _ _ _ hu =>
    have hrest : SessionInv params.cfg { s with events := rest } := sessionInv_congr h ⟨rfl, rfl, rfl⟩ rfl
    exact sessionInv_congr (hu.sessionInv hrest) ⟨rfl, rfl, rfl⟩ rfl

end Sys2Proof.Proofs

/-! PROOFS. The register side of the host (10_state R34 to R55): what a write to a register stores, ignores or acknowledges. -/

namespace Sys2Proof.Proofs

open Sys2Proof.Machine

/-! ### Accesses to registers -/

/-- Every register is at an offset where a 32-bit access is legal (20_memory R81, R82). -/
theorem accessLegal_of_regAt {a : Nat} {r : Reg} (h : regAt a = some r) :
    accessLegal a .four = true ∧ regionOf a = .registers := by
  unfold regAt at h
  split at h <;> cases h <;> decide

theorem hostWrite_register {a : Offset} {r : Reg} (h : regAt a.toNat = some r) (v : Word) (s : State) :
    hostWrite a .four v s = writeReg r a v (answer 0 false s) := by
  obtain ⟨hlegal, hregion⟩ := accessLegal_of_regAt h
  simp only [hostWrite, hlegal, hostWriteEffect, hregion, h, if_true]

theorem hostRead_register {a : Offset} {r : Reg} (h : regAt a.toNat = some r) (s : State) :
    hostRead a .four s = .next (answer (readReg r s) false s) := by
  obtain ⟨hlegal, hregion⟩ := accessLegal_of_regAt h
  simp only [hostRead, hlegal, hregion, h, if_true]

/-- A legal access to a register has 4 bytes (20_memory R82). -/
theorem size_four_of_register {a : Nat} {n : AccessSize} (hl : accessLegal a n = true) (hr : regionOf a = .registers) :
    n = .four := by
  simp only [accessLegal, hr, Bool.and_eq_true, Bool.or_eq_true, decide_eq_true_eq] at hl
  exact hl.2.resolve_left (· rfl)

/-- No register shows the bus answer (log 9). -/
theorem readReg_answer (r : Reg) (d : Word) (e : Bool) (s : State) : readReg r (answer d e s) = readReg r s := by
  cases r <;> rfl

/-! ### The registers that hold what is written -/

/-- The implemented bits of the registers that hold what is written (10_state R35 to R40, R45, R49, R50). -/
def implementedBits : Reg → Option Word
  | .ctrl => some 0x0000000F
  | .fs => some 0x0001FFFF
  | .frame => some 0x00FFFFFF
  | .maxcomb => some 0xFFFFFFFF
  | .absRatio => some 0xFFFFFFFF
  | .relRatio => some 0xFFFFFFFF
  | .irqEn => some 0x0000000F
  | .candIn => some 0xFFFFFFFF
  | .lagIn => some 0xFFFFFFFF
  | _ => none

/-- The state with `v` in such a register. -/
def storeReg (r : Reg) (v : Word) (s : State) : State :=
  match r with
  | .ctrl => { s with settings := { s.settings with ctrl := v.setWidth 4 } }
  | .fs => { s with settings := { s.settings with fs := v.setWidth 17 } }
  | .frame => { s with settings := { s.settings with frame := v.setWidth 24 } }
  | .maxcomb => { s with settings := { s.settings with maxcomb := v } }
  | .absRatio => { s with settings := { s.settings with absRatio := v } }
  | .relRatio => { s with settings := { s.settings with relRatio := v } }
  | .irqEn => { s with irqEn := v.setWidth 4 }
  | .candIn => { s with candIn := v }
  | .lagIn => { s with lagIn := v }
  | _ => s

/-- A write stores into the register; CAND_IN and LAG_IN need BUSY = 0 (70_reset R352). -/
theorem writeReg_eq_storeReg {r : Reg} (hr : implementedBits r ≠ none) (a : Offset) (v : Word) {s : State}
    (hb : r = .candIn ∨ r = .lagIn → s.busy = false) : writeReg r a v s = .next (storeReg r v s) := by
  cases r with
  | ctrl | fs | frame | maxcomb | absRatio | relRatio | irqEn => rfl
  | candIn | lagIn => simp [writeReg, storeReg, hb]
  | _ => exact absurd rfl hr

/-- Truncation to the low `n` bits is a mask. -/
theorem setWidth_setWidth_eq_and (n : Nat) (v : Word) :
    (v.setWidth n).setWidth 32 = v &&& BitVec.ofNat 32 (2 ^ n - 1) := by
  refine BitVec.eq_of_getLsbD_eq fun j hj => ?_
  simp only [BitVec.getLsbD_and, BitVec.getLsbD_setWidth, BitVec.getLsbD_ofNat, Nat.testBit_two_pow_sub_one, hj,
    decide_true, Bool.true_and, Bool.and_comm]

theorem readReg_storeReg_same {r : Reg} {mask : Word} (hr : implementedBits r = some mask) (v : Word) (s : State) :
    readReg r (storeReg r v s) = v &&& mask := by
  cases r with
  | ctrl | irqEn => cases hr; exact setWidth_setWidth_eq_and 4 v
  | fs => cases hr; exact setWidth_setWidth_eq_and 17 v
  | frame => cases hr; exact setWidth_setWidth_eq_and 24 v
  | maxcomb | absRatio | relRatio | candIn | lagIn => cases hr; exact (BitVec.and_allOnes (x := v)).symm
  | _ => cases hr

theorem readReg_storeReg_other {r r' : Reg} (h : r' ≠ r) (v : Word) (s : State) :
    readReg r' (storeReg r v s) = readReg r' s := by
  cases r with
  | ctrl | fs | frame | maxcomb | absRatio | relRatio | irqEn | candIn | lagIn => cases r' <;> trivial
  | _ => rfl

/-- A stored register is no part of the memory, the session, the latch, PEND or the schedule. -/
theorem storeReg_frame (r : Reg) (v : Word) (s : State) :
    (storeReg r v s).mem = s.mem ∧ (storeReg r v s).session = s.session ∧ KeepsLatch s (storeReg r v s)
      ∧ (storeReg r v s).pend = s.pend ∧ (storeReg r v s).events = s.events := by
  cases r <;> exact ⟨rfl, rfl, ⟨rfl, rfl, rfl⟩, rfl, rfl⟩

/-! ### The registers and the buffer that ignore writes -/

/-- The read-only registers (20_memory R87). -/
def readOnly : Reg → Bool
  | .id | .status | .result | .cand | .candCnt | .chunkCnt | .frameCnt | .rejectCnt | .payLen | .decProg => true
  | _ => false

theorem writeReg_readOnly {r : Reg} (h : readOnly r = true) (a : Offset) (v : Word) (s : State) :
    writeReg r a v s = .next s := by
  cases r with
  | id | status | result | cand | candCnt | chunkCnt | frameCnt | rejectCnt | payLen | decProg => rfl
  | _ => cases h

theorem hostWrite_readOnly {a : Offset} {n : AccessSize} {r : Reg} (hl : accessLegal a.toNat n = true)
    (hr : regAt a.toNat = some r) (ho : readOnly r = true) (v : Word) (s : State) :
    hostWrite a n v s = .next (answer 0 false s) := by
  obtain rfl := size_four_of_register hl (accessLegal_of_regAt hr).2
  rw [hostWrite_register hr, writeReg_readOnly ho]

theorem regionOf_payload {a : Nat} (h : 0x0500 ≤ a ∧ a ≤ 0x05FF) : regionOf a = .payload := by
  unfold regionOf
  rw [if_neg (by omega), if_neg (by omega), if_neg (by omega), if_pos h.2]

/-- A write to PAYLOAD is ignored (20_memory R84). -/
theorem hostWrite_payload {a : Offset} {n : AccessSize} (hl : accessLegal a.toNat n = true)
    (hr : regionOf a.toNat = .payload) (v : Word) (s : State) : hostWrite a n v s = .next (answer 0 false s) := by
  simp only [hostWrite, hl, hostWriteEffect, hr, if_true]

/-! ### The statements -/

/-- Settles O50: a write to a register with implemented bits is a store into it; the other writes reach no field. -/
theorem registerWritesStoreOrAreIgnored : Obligations.RegisterWritesStoreOrAreIgnored := by
  refine ⟨fun s v mask a hb hmem => ?_, fun s v a n hl ha => ?_⟩
  · obtain ⟨r, hr, hbits, hbusy⟩ : ∃ r, regAt a.toNat = some r ∧ implementedBits r = some mask
        ∧ (r = .candIn ∨ r = .lagIn → a = 0x03C ∨ a = 0x040) := by
      simp only [List.mem_cons, Prod.mk.injEq, List.not_mem_nil, or_false] at hmem
      rcases hmem with ⟨rfl, rfl⟩ | ⟨rfl, rfl⟩ | ⟨rfl, rfl⟩ | ⟨rfl, rfl⟩ | ⟨rfl, rfl⟩ | ⟨rfl, rfl⟩ | ⟨rfl, rfl⟩
        | ⟨rfl, rfl⟩ | ⟨rfl, rfl⟩ <;> exact ⟨_, rfl, rfl, by decide⟩
    have hne : implementedBits r ≠ none := by simp [hbits]
    obtain ⟨hm, hs, hlatch, hpend, hev⟩ := storeReg_frame r v (answer 0 false s)
    refine ⟨_, _, ?_, hostRead_register hr _, readReg_storeReg_same hbits v _, fun r' hr' => ?_, hm, hs, ?_, hpend, hev⟩
    · rw [hostWrite_register hr, writeReg_eq_storeReg hne a v (s := answer 0 false s) fun h => hb (hbusy h)]
    · rw [readReg_storeReg_other (fun he => hr' (by rw [he, hr])), readReg_answer]
    · exact ⟨hlatch.ready, hlatch.latched, hlatch.h⟩
  · rcases ha with ha | ha
    · obtain ⟨r, hr, ho⟩ : ∃ r, regAt a.toNat = some r ∧ readOnly r = true := by
        simp only [List.mem_cons, List.not_mem_nil, or_false] at ha
        rcases ha with rfl | rfl | rfl | rfl | rfl | rfl | rfl | rfl | rfl | rfl <;> exact ⟨_, rfl, rfl⟩
      exact hostWrite_readOnly hl hr ho v s
    · exact hostWrite_payload hl (regionOf_payload ha) v s

/-- A bit vector is not 0 exactly when one of its bits is 1. -/
theorem bitVec_ne_zero_iff {w : Nat} (x : BitVec w) : x ≠ 0 ↔ ∃ j, j < w ∧ x.getLsbD j = true := by
  constructor
  · intro h
    by_contra hno
    push Not at hno
    exact h (BitVec.eq_of_getLsbD_eq fun j hj => by simp [hno j hj])
  · rintro ⟨j, _, hj⟩ rfl
    simp at hj

/-- The interrupt output is the level of the pending and enabled bits (60_exceptions R310). -/
theorem irqLevel_iff (s : State) :
    irqLevel s = true ↔ ∃ j, j < 4 ∧ s.irqStatus.getLsbD j = true ∧ s.irqEn.getLsbD j = true := by
  simp only [irqLevel, decide_eq_true_eq, bitVec_ne_zero_iff, BitVec.getLsbD_and, Bool.and_eq_true]

/-- A W1C write of `v` clears exactly the bits of `x` that are 1 in `v`. -/
theorem getLsbD_w1c {w : Nat} (x : BitVec w) (v : Word) {j : Nat} (hj : j < w) :
    (x &&& ~~~(v.setWidth w)).getLsbD j = (x.getLsbD j && !v.getLsbD j) := by
  simp [hj]

/-- Settles O51: the two W1C registers are written by the acknowledgments, which move nothing else. -/
theorem w1cWritesAcknowledgeErrorsAndInterrupts : Obligations.W1cWritesAcknowledgeErrorsAndInterrupts := by
  refine fun s v => ⟨irqLevel_iff s, ⟨ackErrors v (answer 0 false s), ?_, ?_, rfl, rfl⟩,
    ackIrq v (answer 0 false s), ?_, ?_, rfl⟩
  · exact hostWrite_register (r := .errFlags) rfl v s
  · exact fun j hj => getLsbD_w1c s.errFlags v hj
  · exact hostWrite_register (r := .irqStatus) rfl v s
  · exact fun j hj => getLsbD_w1c s.irqStatus v hj

end Sys2Proof.Proofs

/-! PROOFS. The address map (20_memory R81 to R83), and what a step does to the bytes of the buffers (R84). -/

namespace Sys2Proof.Proofs

open Sys2Proof.Machine

/-! ### The address map -/

/-- Every region boundary is a multiple of 4 (20_memory R82). -/
theorem regionOf_congr {a b : Nat} (h : a / 4 = b / 4) : regionOf a = regionOf b := by
  have h1 : a ≤ 0x0057 ↔ b ≤ 0x0057 := by omega
  have h2 : a ≤ 0x03FF ↔ b ≤ 0x03FF := by omega
  have h3 : a ≤ 0x04FF ↔ b ≤ 0x04FF := by omega
  have h4 : a ≤ 0x05FF ↔ b ≤ 0x05FF := by omega
  have h5 : a ≤ 0x3FFF ↔ b ≤ 0x3FFF := by omega
  have h6 : a ≤ 0x7FFF ↔ b ≤ 0x7FFF := by omega
  have h7 : a ≤ 0xBFFF ↔ b ≤ 0xBFFF := by omega
  simp only [regionOf, h1, h2, h3, h4, h5, h6, h7]

/-- An aligned access stays within one aligned word. -/
theorem div_four_of_aligned {a i : Nat} {n : AccessSize} (ha : a % n.bytes = 0) (hi : i < n.bytes) :
    (a + i) / 4 = a / 4 := by
  cases n <;> simp only [AccessSize.bytes] at ha hi <;> omega

theorem aligned_of_legal {a : Nat} {n : AccessSize} (h : accessLegal a n = true) : a % n.bytes = 0 := by
  simp only [accessLegal, Bool.and_eq_true, decide_eq_true_eq] at h
  exact h.1.1

/-- A legal access touches one region only (20_memory R82). -/
theorem regionOf_of_legal {a i : Nat} {n : AccessSize} (h : accessLegal a n = true) (hi : i < n.bytes) :
    regionOf (a + i) = regionOf a :=
  regionOf_congr (div_four_of_aligned (aligned_of_legal h) hi)

/-! ### What leaves PAY alone -/

/-- The move from `s` to `t` keeps the canonical form of the memory and every PAY byte. -/
structure KeepsPay (s t : State) : Prop where
  wf : s.mem.wf = true → t.mem.wf = true
  pay : ∀ i, i < 256 → byteAt t (payBase + i) = byteAt s (payBase + i)

/-- A move that keeps all of the memory. -/
theorem KeepsPay.of_mem {s t : State} (hm : t.mem = s.mem) (he : t.epoch = s.epoch) : KeepsPay s t :=
  ⟨fun h => hm ▸ h, fun i _ => byteAt_congr hm he (payBase + i)⟩

theorem KeepsPay.trans {s t u : State} (h : KeepsPay s t) (k : KeepsPay t u) : KeepsPay s u :=
  ⟨fun w => k.wf (h.wf w), fun i hi => (k.pay i hi).trans (h.pay i hi)⟩

/-- A store whose bytes miss PAY. -/
theorem storeBytes_keepsPay {base : Nat} {bs : List Byte} (s : State)
    (h : ∀ i, i < 256 → ¬(base ≤ payBase + i ∧ payBase + i < base + bs.length)) :
    KeepsPay s (storeBytes base bs s) :=
  ⟨storeBytes_wf base bs s, fun i hi => by rw [byteAt_storeBytes, if_neg (h i hi)]⟩

/-! ### Host accesses -/

theorem leBytes_length (n v : Nat) : (leBytes n v).length = n := by
  induction n generalizing v with
  | zero => rfl
  | succ n ih => simp only [leBytes, List.length_cons, ih]

/-- A register write reaches no memory. -/
theorem writeReg_keepsPay {r : Reg} {a : Offset} {v : Word} {s t : State} (h : writeReg r a v s = .next t) :
    KeepsPay s t := by
  cases r with
  | cmd =>
    cases h
    unfold issueCommand
    split <;> exact .of_mem rfl rfl
  | candIn | lagIn =>
    simp only [writeReg] at h
    split at h <;> cases h
    exact .of_mem rfl rfl
  | _ => cases h; exact .of_mem rfl rfl

/-- A legal write into another buffer touches no PAY byte, for all its bytes lie in the region of the first. -/
theorem bufferWrite_keepsPay {a : Offset} {n : AccessSize} {v : Word} {s t : State}
    (hl : accessLegal a.toNat n = true) (hr : regionOf a.toNat ≠ .payload) (h : bufferWrite a n v s = .next t) :
    KeepsPay s t := by
  unfold bufferWrite at h
  split at h <;> cases h
  refine storeBytes_keepsPay s fun i hi hin => hr ?_
  rw [leBytes_length] at hin
  have hregion := regionOf_of_legal hl (i := payBase + i - a.toNat) (by omega)
  rw [← hregion, show a.toNat + (payBase + i - a.toNat) = payBase + i by omega]
  exact regionOf_payload (by unfold payBase; omega)

theorem hostWrite_keepsPay {a : Offset} {n : AccessSize} {v : Word} {s t : State}
    (h : hostWrite a n v s = .next t) : KeepsPay s t := by
  unfold hostWrite at h
  split at h
  · next hl =>
    refine KeepsPay.trans (t := answer 0 false s) (.of_mem rfl rfl) ?_
    unfold hostWriteEffect at h
    cases hreg : regionOf a.toNat <;> simp only [hreg] at h
    case registers =>
      split at h
      · exact writeReg_keepsPay h
      · cases h; exact .of_mem rfl rfl
    case cwBuf | inBuf | outBuf => exact bufferWrite_keepsPay hl (by simp [hreg]) h
    case payload | reserved => cases h; exact .of_mem rfl rfl
  · cases h; exact .of_mem rfl rfl

/-- A read answers the bus, or reports a BUS error. -/
theorem hostRead_keepsPay {a : Offset} {n : AccessSize} {s t : State} (h : hostRead a n s = .next t) :
    KeepsPay s t := by
  unfold hostRead at h
  split at h
  · cases hreg : regionOf a.toNat <;> simp only [hreg] at h
    case registers => split at h <;> cases h <;> exact .of_mem rfl rfl
    case cwBuf | outBuf => split at h <;> cases h; exact .of_mem rfl rfl
    case payload | inBuf | reserved => cases h; exact .of_mem rfl rfl
  · cases h; exact .of_mem rfl rfl

/-! ### Steps -/

/-- The moves of the memory that a step from `s` can end in; `rest` is the schedule left over. -/
inductive MemoryEnd (s : State) : State → Prop where
  | reset (rest : List Event) (he : s.events = .reset :: rest) : MemoryEnd s (resetInput { s with events := rest })
  | keepsPay (t : State) (h : KeepsPay s t) : MemoryEnd s t
  | command (rest : List Event) (i : Instr) (t : State) (hc : CoreIsNext s) (hb : s.busy = true)
      (hd : decode s.pend = .ok i) (hx : exec i { s with events := rest } = .next t) : MemoryEnd s (complete t)

/-- The core's turn (60_exceptions R303), with the schedule `rest` left over. -/
theorem coreTurn_memoryEnd {s t : State} (hc : CoreIsNext s) (rest : List Event)
    (h : coreTurn { s with events := rest } = .next t) : MemoryEnd s t := by
  unfold coreTurn coreStep runCommand at h
  split at h
  · next hb =>
    split at h
    · cases h; exact .keepsPay _ (.of_mem rfl rfl)
    · cases h; exact .keepsPay _ (.of_mem rfl rfl)
    · next i hd =>
      cases hx : exec i { s with events := rest } with
      | next u => rw [hx] at h; cases h; exact .command rest i u hc hb hd hx
      | fault f => rw [hx] at h; cases h
      | refused r => rw [hx] at h; cases h
  · cases h; exact .keepsPay _ (.of_mem rfl rfl)

theorem step_memoryEnd {s t : State} (h : step s = .next t) : MemoryEnd s t := by
  unfold step advance at h
  split at h
  · next he => exact coreTurn_memoryEnd (.inl he) [] (by rw [← he]; exact h)
  · next e rest he =>
    have taken : KeepsPay s { s with events := rest } := .of_mem rfl rfl
    cases e with
    | read a n => exact .keepsPay t (taken.trans (hostRead_keepsPay h))
    | write a n v => exact .keepsPay t (taken.trans (hostWrite_keepsPay h))
    | core => exact coreTurn_memoryEnd (.inr ⟨rest, he⟩) rest h
    | reset => cases h; exact .reset rest he

/-! ### The canonical form -/

/-- ANALYZE and CHUNK write memory through the slot step alone (43_spectral R210). -/
theorem analyzeValues_wf (p : Params) (v : List Rat) {s : State} (h : s.mem.wf = true) :
    (analyzeValues p v s).mem.wf = true :=
  have ⟨_, _, _, _, _, hwf⟩ := slotStep_keeps p.cfg (payloadRecord p s.latched (pushWindow s.session.wb v))
    (lagRecord p s.latched (pushWindow s.session.wb v))
    { s with session := { s.session with wb := pushWindow s.session.wb v } }
  hwf h

/-- Every command writes memory by stores alone. -/
theorem CommandEnd.mem_wf {i : Instr} {s t : State} (h : CommandEnd s i t) (hs : s.mem.wf = true) :
    t.mem.wf = true := by
  cases h with
  | error | nop | initFailed => exact hs
  | init | clear | firRun | rsEnc | synth => exact writeBytes_wf _ _ _ hs
  | analyze => exact analyzeValues_wf params _ hs
  | chunk => exact analyzeValues_wf params _ (s := { s with session := _ }) hs
  | candPush cnt lcnt =>
    have ⟨_, _, _, _, _, hwf⟩ :=
      slotStep_keeps params.cfg (injectedRecord s.candIn cnt) (injectedRecord s.lagIn lcnt) s
    exact hwf hs
  | rsDec d k =>
    unfold rsDecEffect
    split
    · exact writeBytes_wf _ _ _ hs
    · exact hs

/-- Settles O53: reset empties the memory, and everything else writes it by stores, which keep its offsets rising. -/
theorem stepKeepsMemoryCanonical : Obligations.StepKeepsMemoryCanonical := by
  intro s t hs h
  cases step_memoryEnd h with
  | reset => rfl
  | keepsPay _ hk => exact hk.wf hs
  | command rest i u _ _ _ hx => exact (exec_end hx).mem_wf (s := { s with events := rest }) hs

/-! ### The commands that leave PAY alone -/

theorem gated_keepsPay {needs bad : Bool} {s go t : State} (h : gated needs bad s go = .next t)
    (hgo : bad = false → KeepsPay s go) : KeepsPay s t := by
  rcases gated_cases needs bad s go with ⟨-, -, hg⟩ | ⟨-, -, hg⟩ | ⟨-, hb, hg⟩ <;> rw [hg] at h <;> cases h
  · exact .of_mem rfl rfl
  · exact .of_mem rfl rfl
  · exact hgo hb

/-- OUT lies above PAY. -/
theorem storeOut_keepsPay (vs : List Half) (s : State) : KeepsPay s (storeOut vs s) :=
  storeBytes_keepsPay s fun i hi => by unfold outBase payBase; omega

theorem firRunEffect_keepsPay (p : Params) (l : Nat) (s : State) : KeepsPay s (firRunEffect p l s) :=
  (storeOut_keepsPay ((firStream p.num s.h s.session.hist (inSamples s l)).1.map roundSample) s).trans
    (.of_mem rfl rfl)

/-- CW ends where PAY begins. -/
theorem storeCw_keepsPay {i : Nat} {bs : List Byte} (s : State) (h : i + bs.length ≤ 256) :
    KeepsPay s (storeCw i bs s) :=
  storeBytes_keepsPay s fun j hj => by unfold cwBase payBase; omega

/-- Encode(d, K) gives at most K bytes: the shift register of R156 holds one per tap. -/
theorem rsEncode_length_le (d : List Byte) (k : Nat) : (rsEncode d k).length ≤ k := by
  have hreg : ∀ (taps reg : List Byte), taps.length ≤ k → reg.length ≤ k →
      (d.foldl (encodeByte taps) reg).length ≤ k := by
    intro taps reg htaps
    induction d generalizing reg with
    | nil => exact id
    | cons b d ih => exact fun _ => ih _ (by simp [encodeByte, htaps])
  exact hreg _ _ (by simp) (by simp)

/-- A codeword has at most D + K bytes (41_reed_solomon R160). -/
theorem isCodeword_length_le {c : List Byte} {d k : Nat} (h : isCodeword c d k = true) : c.length ≤ d + k := by
  have hdrop : c.drop d = rsEncode (c.take d) k := of_decide_eq_true h
  have hlen := rsEncode_length_le (c.take d) k
  rw [← hdrop, List.length_drop] at hlen
  omega

/-- What Decode accepts is a codeword (41_reed_solomon R160). -/
theorem isCodeword_of_rsDecode {r c : List Byte} {d k n : Nat} (h : rsDecode r d k = some (n, c)) :
    isCodeword c d k = true := by
  unfold rsDecode at h
  split at h
  · cases h; assumption
  · split at h
    · cases h
    · split at h <;> cases h
      next hc => exact (Bool.and_eq_true_iff.1 hc).1

theorem rsEncEffect_keepsPay {d k : Nat} (s : State) (h : rsArgBad d k = false) :
    KeepsPay s (rsEncEffect d k s) := by
  have hle : d + k ≤ 255 := by simp [rsArgBad] at h; omega
  have hlen := rsEncode_length_le (cwBytes s d) k
  exact (storeCw_keepsPay s (by omega)).trans (.of_mem rfl rfl)

theorem rsDecEffect_keepsPay {d k : Nat} (s : State) (h : rsArgBad d k = false) :
    KeepsPay s (rsDecEffect d k s) := by
  have hle : d + k ≤ 255 := by simp [rsArgBad] at h; omega
  unfold rsDecEffect
  split
  · next n c hdec =>
    have hlen := isCodeword_length_le (isCodeword_of_rsDecode hdec)
    exact (storeCw_keepsPay s (by omega)).trans (.of_mem rfl rfl)
  · exact .of_mem rfl rfl

/-- INIT, CLEAR and the commands that make a slot step: those that may write PAY (20_memory R84). -/
def MayWritePay (i : Instr) : Prop :=
  i = .init ∨ i = .clear ∨ i = .analyze ∨ i = .chunk ∨ ∃ cnt lcnt, i = .candPush cnt lcnt

/-- The other commands write CW, OUT or no memory. -/
theorem exec_keepsPay_or {i : Instr} {s t : State} (h : exec i s = .next t) : KeepsPay s t ∨ MayWritePay i := by
  cases i with
  | init => exact .inr (.inl rfl)
  | clear => exact .inr (.inr (.inl rfl))
  | analyze => exact .inr (.inr (.inr (.inl rfl)))
  | chunk => exact .inr (.inr (.inr (.inr (.inl rfl))))
  | candPush cnt lcnt => exact .inr (.inr (.inr (.inr (.inr ⟨cnt, lcnt, rfl⟩))))
  | nop => cases h; exact .inl (.of_mem rfl rfl)
  | firRun l => exact .inl (gated_keepsPay (exec_firRun l s ▸ h) fun _ => firRunEffect_keepsPay params l s)
  | rsEnc d k => exact .inl (gated_keepsPay (exec_rsEnc d k s ▸ h) (rsEncEffect_keepsPay s))
  | rsDec d k => exact .inl (gated_keepsPay (exec_rsDec d k s ▸ h) (rsDecEffect_keepsPay s))
  | synth sym => exact .inl (gated_keepsPay (exec_synth sym s ▸ h) fun _ => storeOut_keepsPay _ s)

/-- Settles O59: host accesses miss PAY, and of the commands only those of R84 may reach it. -/
theorem onlyTheDecoderAndRestartsWritePay : Obligations.OnlyTheDecoderAndRestartsWritePay := by
  intro s t h
  cases step_memoryEnd h with
  | reset rest he => exact .inr (.inl ⟨rest, he⟩)
  | keepsPay _ hk => exact .inl hk.pay
  | command rest i u hc hb hd hx =>
    rcases exec_keepsPay_or hx with hk | hi
    · exact .inl hk.pay
    · exact .inr (.inr ⟨hb, hc, by simpa only [hd, Decoded.ok.injEq, MayWritePay] using hi⟩)

end Sys2Proof.Proofs

/-! PROOFS. What host accesses answer: illegal ones (20_memory R83), the registers (10_state R34 to R55), and the buffers
in little-endian order (20_memory R85, R86). -/

namespace Sys2Proof.Proofs

open Sys2Proof.Machine

/-! ### Legal and illegal accesses (20_memory R82, R83) -/

theorem regionOf_registers_iff (a : Nat) : regionOf a = .registers ↔ a ≤ 0x0057 := by
  unfold regionOf
  split_ifs <;> simp_all

/-- The offsets outside the reserved ranges (20_memory R81). -/
theorem regionOf_mapped_iff (a : Nat) :
    regionOf a ≠ .reserved ↔ a ≤ 0x0057 ∨ (0x0400 ≤ a ∧ a ≤ 0x05FF) ∨ (0x4000 ≤ a ∧ a ≤ 0xBFFF) := by
  unfold regionOf
  split_ifs <;> simp <;> omega

theorem accessLegal_iff (a : Nat) (n : AccessSize) :
    accessLegal a n = true ↔
      a % n.bytes = 0 ∧ ((a ≤ 0x0057 ∧ n = .four) ∨ (0x0400 ≤ a ∧ a ≤ 0x05FF) ∨ (0x4000 ≤ a ∧ a ≤ 0xBFFF)) := by
  simp only [accessLegal, Bool.and_eq_true, Bool.or_eq_true, decide_eq_true_eq, and_assoc, regionOf_mapped_iff, ne_eq,
    regionOf_registers_iff]
  by_cases hn : n = .four
  · simp only [hn, and_true, or_true]
  · simp only [hn, and_false, or_false, false_or]
    omega

/-- Settles O46: the map decides legality, and its boundaries are multiples of 4, so an aligned access crosses none. -/
theorem legalAccessesAreAlignedAndMapped : Obligations.LegalAccessesAreAlignedAndMapped :=
  fun a n => ⟨accessLegal_iff a.toNat n, fun hl _ hi => regionOf_of_legal hl hi⟩

theorem step_read {s : State} {a : Offset} {n : AccessSize} {rest : List Event} (h : s.events = .read a n :: rest) :
    step s = hostRead a n { s with events := rest } := by
  simp only [step, advance, h, runEvent]

theorem step_write {s : State} {a : Offset} {n : AccessSize} {v : Word} {rest : List Event}
    (h : s.events = .write a n v :: rest) : step s = hostWrite a n v { s with events := rest } := by
  simp only [step, advance, h, runEvent]

theorem hostRead_illegal {a : Offset} {n : AccessSize} (h : accessLegal a.toNat n = false) (s : State) :
    hostRead a n s = .next (busError s) := by
  simp [hostRead, h]

theorem hostWrite_illegal {a : Offset} {n : AccessSize} (h : accessLegal a.toNat n = false) (v : Word) (s : State) :
    hostWrite a n v s = .next (busError s) := by
  simp [hostWrite, h]

/-- Settles O47: an illegal access is a BUS error, whose next state is the report with the bus answered. -/
theorem busErrorsOnlyReport : Obligations.BusErrorsOnlyReport := by
  intro s a n v rest hillegal
  refine ⟨fun he => ?_, fun he => ?_⟩
  · rw [step_read he, hostRead_illegal hillegal]; rfl
  · rw [step_write he, hostWrite_illegal hillegal]; rfl

/-! ### Legal reads (20_memory R87) -/

/-- A buffer that a read may touch now: CW_BUF and OUT_BUF need BUSY = 0 (70_reset R352). -/
def ReadableBuffer (a : Nat) (s : State) : Prop :=
  regionOf a = .payload ∨ regionOf a = .inBuf ∨ (s.busy = false ∧ (regionOf a = .cwBuf ∨ regionOf a = .outBuf))

theorem hostRead_buffer {a : Offset} {n : AccessSize} {s : State} (hl : accessLegal a.toNat n = true)
    (hr : ReadableBuffer a.toNat s) : hostRead a n s = .next (answer (bufferValue s a.toNat n) false s) := by
  rcases hr with hr | hr | ⟨hb, hr | hr⟩
  · simp [hostRead, hl, hr]
  · simp [hostRead, hl, hr]
  · simp [hostRead, hl, hr, hb]
  · simp [hostRead, hl, hr, hb]

/-- Every aligned word of the register region is a register (10_state section 2). -/
theorem regAt_of_aligned {a : Nat} (ha : a % 4 = 0) (hr : a ≤ 0x0057) : ∃ r, regAt a = some r := by
  obtain ⟨k, rfl⟩ : ∃ k, a = 4 * k := ⟨a / 4, by omega⟩
  have hk : k < 22 := by omega
  interval_cases k <;> exact ⟨_, rfl⟩

/-- A legal access is aimed at a register, a buffer that a read may touch, or a buffer that a pending command may use. -/
theorem legal_cases {a : Nat} {n : AccessSize} (hl : accessLegal a n = true) (s : State) :
    (n = .four ∧ ∃ r, regAt a = some r) ∨ ReadableBuffer a s
      ∨ (s.busy = true ∧ (regionOf a = .cwBuf ∨ regionOf a = .outBuf)) := by
  have halign := aligned_of_legal hl
  have hmapped : regionOf a ≠ .reserved := by
    simp only [accessLegal, Bool.and_eq_true, decide_eq_true_eq] at hl
    exact hl.1.2
  unfold ReadableBuffer
  cases hr : regionOf a
  case registers =>
    obtain rfl := size_four_of_register hl hr
    exact .inl ⟨rfl, regAt_of_aligned halign ((regionOf_registers_iff a).1 hr)⟩
  case reserved => exact absurd hr hmapped
  all_goals cases s.busy <;> simp

/-- A legal read that is no hazard answers a value that the bus answer does not move. -/
theorem hostRead_legal {s t : State} {a : Offset} {n : AccessSize} (hl : accessLegal a.toNat n = true)
    (h : hostRead a n s = .next t) : ∃ v, t = answer v false s ∧ hostRead a n t = .next (answer v false t) := by
  rcases legal_cases hl s with ⟨rfl, r, hr⟩ | hr | ⟨hb, hr⟩
  · rw [hostRead_register hr] at h
    cases h
    exact ⟨_, rfl, by rw [hostRead_register hr, readReg_answer]⟩
  · rw [hostRead_buffer hl hr] at h
    cases h
    exact ⟨_, rfl, hostRead_buffer (s := answer (bufferValue s a.toNat n) false s) hl hr⟩
  · rcases hr with hr | hr <;> simp [hostRead, hl, hr, hb] at h

/-! ### The fields of the registers (10_state R42, R46 to R48) -/

theorem readAnswers_register {a : Offset} {r : Reg} (h : regAt a.toNat = some r) (s : State) :
    ReadAnswers s a .four (readReg r s) := hostRead_register h s

/-- A field of a packed word, by its number. -/
theorem extractLsb'_ofNat_eq_ofNat {x i len y : Nat} (h : i + len ≤ 32) (hx : x / 2 ^ i % 2 ^ len = y % 2 ^ len) :
    (BitVec.ofNat 32 x).extractLsb' i len = BitVec.ofNat len y := by
  have hy : BitVec.ofNat len y = BitVec.ofNat len (x / 2 ^ i) := BitVec.eq_of_toNat_eq (by simp [hx])
  rw [hy]
  refine BitVec.eq_of_getLsbD_eq fun j hj => ?_
  have hij : j + i < 32 := by omega
  simp only [BitVec.getLsbD_extractLsb', BitVec.getLsbD_ofNat, Nat.testBit_div_two_pow, hj, hij, decide_true,
    Bool.true_and, Nat.add_comm i j]

theorem extractLsb'_ofNat_eq {x i len : Nat} {f : BitVec len} (h : i + len ≤ 32) (hx : x / 2 ^ i % 2 ^ len = f.toNat) :
    (BitVec.ofNat 32 x).extractLsb' i len = f := by
  rw [extractLsb'_ofNat_eq_ofNat h (y := f.toNat) (by rw [hx, Nat.mod_eq_of_lt f.isLt])]
  exact (BitVec.ofNat_toNat len f).trans (BitVec.setWidth_eq f)

/-- A flag of a packed word. -/
theorem getLsbD_ofNat_eq {x i : Nat} {b : Bool} (hi : i < 32) (h : x / 2 ^ i % 2 = bit b) :
    (BitVec.ofNat 32 x).getLsbD i = b := by
  rw [BitVec.getLsbD_ofNat, Nat.testBit_eq_decide_div_mod_eq, h]
  cases b <;> simp [hi, bit]

theorem bit_le_one (b : Bool) : bit b ≤ 1 := by cases b <;> decide

theorem dstateCode_le_three (d : DState) : d.code ≤ 3 := by cases d <;> decide

/-- The fields of STATUS (10_state R42). -/
theorem statusWord_fields (s : State) :
    (statusWord s).getLsbD 0 = s.busy ∧ (statusWord s).getLsbD 1 = s.ready
      ∧ (statusWord s).extractLsb' 2 2 = BitVec.ofNat 2 s.session.dstate.code
      ∧ (statusWord s).getLsbD 4 = s.session.payOvf ∧ (statusWord s).extractLsb' 5 3 = 0
      ∧ (statusWord s).extractLsb' 8 8 = s.errCode ∧ (statusWord s).extractLsb' 16 16 = 0 := by
  have hbusy := bit_le_one s.busy
  have hready := bit_le_one s.ready
  have hovf := bit_le_one s.session.payOvf
  have hd := dstateCode_le_three s.session.dstate
  have he := s.errCode.isLt
  unfold statusWord
  refine ⟨getLsbD_ofNat_eq (by omega) ?_, getLsbD_ofNat_eq (by omega) ?_, extractLsb'_ofNat_eq_ofNat (by omega) ?_,
    getLsbD_ofNat_eq (by omega) ?_, extractLsb'_ofNat_eq_ofNat (y := 0) (by omega) ?_,
    extractLsb'_ofNat_eq (by omega) ?_, extractLsb'_ofNat_eq_ofNat (y := 0) (by omega) ?_⟩
  all_goals omega

/-- The fields of RESULT (10_state R46). -/
theorem resultWord_fields (s : State) :
    (resultWord s).extractLsb' 0 8 = s.resultCount ∧ (resultWord s).getLsbD 8 = s.resultReject
      ∧ (resultWord s).extractLsb' 9 23 = 0 := by
  have hcount := s.resultCount.isLt
  have hreject := bit_le_one s.resultReject
  unfold resultWord
  refine ⟨extractLsb'_ofNat_eq (by omega) ?_, getLsbD_ofNat_eq (by omega) ?_,
    extractLsb'_ofNat_eq_ofNat (y := 0) (by omega) ?_⟩
  all_goals omega

/-- The fields of CAND (10_state R47). -/
theorem candWord_fields (s : State) :
    (candWord s).extractLsb' 0 16 = s.session.candBin0 ∧ (candWord s).extractLsb' 16 16 = s.session.candBin1 :=
  ⟨BitVec.extractLsb'_append_eq_right, BitVec.extractLsb'_append_eq_left⟩

/-- The fields of CAND_CNT (10_state R48). -/
theorem candCntWord_fields (s : State) :
    (candCntWord s).extractLsb' 0 2 = s.session.candCnt ∧ (candCntWord s).extractLsb' 2 2 = s.session.lagCnt
      ∧ (candCntWord s).extractLsb' 4 28 = 0 := by
  have hcnt := s.session.candCnt.isLt
  have hlag := s.session.lagCnt.isLt
  unfold candCntWord
  refine ⟨extractLsb'_ofNat_eq (by omega) ?_, extractLsb'_ofNat_eq (by omega) ?_,
    extractLsb'_ofNat_eq_ofNat (y := 0) (by omega) ?_⟩
  all_goals omega

/-- Settles O48: a legal read is an answer alone, and each register is read at its offset. -/
theorem readsAnswerTheRegistersAndChangeNothing : Obligations.ReadsAnswerTheRegistersAndChangeNothing := by
  refine ⟨fun s t a n hl h => ?_, fun s => ?_⟩
  · obtain ⟨v, rfl, hagain⟩ := hostRead_legal hl h
    exact ⟨rfl, hagain⟩
  · obtain ⟨hbusy, hready, hdstate, hstatus⟩ := statusWord_fields s
    have answers {a : Offset} {r : Reg} (h : regAt a.toNat = some r) := readAnswers_register h s
    refine ⟨answers (r := .id) rfl, answers (r := .ctrl) rfl, answers (r := .fs) rfl, answers (r := .frame) rfl,
      answers (r := .maxcomb) rfl, answers (r := .absRatio) rfl, answers (r := .relRatio) rfl, answers (r := .cmd) rfl,
      ⟨_, answers (r := .status) rfl, hbusy, hready, ?_, ?_, ?_, ?_, hstatus⟩, answers (r := .errFlags) rfl,
      answers (r := .irqStatus) rfl, answers (r := .irqEn) rfl, ⟨_, answers (r := .result) rfl, resultWord_fields s⟩,
      ⟨_, answers (r := .cand) rfl, candWord_fields s⟩, ⟨_, answers (r := .candCnt) rfl, candCntWord_fields s⟩,
      answers (r := .candIn) rfl, answers (r := .lagIn) rfl, answers (r := .chunkCnt) rfl,
      answers (r := .frameCnt) rfl, answers (r := .rejectCnt) rfl, answers (r := .payLen) rfl,
      answers (r := .decProg) rfl⟩
    all_goals exact fun hd => hdstate.trans (by rw [hd]; rfl)

end Sys2Proof.Proofs

/-! PROOFS. The byte order of the buffers (20_memory R85, R86). -/

namespace Sys2Proof.Proofs

open Sys2Proof.Machine

/-! ### Little-endian values and their bytes -/

theorem leBytes_getD (n v i : Nat) (hi : i < n) : (leBytes n v).getD i 0 = BitVec.ofNat 8 (v / 2 ^ (8 * i)) := by
  induction n generalizing v i with
  | zero => omega
  | succ n ih =>
    cases i with
    | zero => simp [leBytes]
    | succ i =>
      rw [leBytes, List.getD_cons_succ, ih _ _ (by omega), Nat.div_div_eq_div_mul]
      congr 2
      rw [Nat.mul_succ, Nat.pow_add, Nat.mul_comm]

theorem leValue_leBytes (n v : Nat) : leValue (leBytes n v) = v % 2 ^ (8 * n) := by
  induction n generalizing v with
  | zero => simp [leBytes, leValue, Nat.mod_one]
  | succ n ih =>
    rw [leBytes, leValue, ih, BitVec.toNat_ofNat, Nat.mul_succ, Nat.pow_add, Nat.mul_comm (2 ^ (8 * n)), Nat.mod_mul]

theorem leValue_lt (bs : List Byte) : leValue bs < 2 ^ (8 * bs.length) := by
  induction bs with
  | nil => simp [leValue]
  | cons b bs ih =>
    have hb := b.isLt
    rw [leValue, List.length_cons, Nat.mul_succ, Nat.pow_add]
    omega

theorem leBytes_leValue (bs : List Byte) : leBytes bs.length (leValue bs) = bs := by
  induction bs with
  | nil => rfl
  | cons b bs ih =>
    have hb := b.isLt
    have hhead : BitVec.ofNat 8 (leValue (b :: bs)) = b := BitVec.eq_of_toNat_eq (by simp [leValue, Nat.mod_eq_of_lt hb])
    have htail : leValue (b :: bs) / 256 = leValue bs := by rw [leValue]; omega
    rw [List.length_cons, leBytes, hhead, htail, ih]

/-! ### Buffer accesses -/

theorem bytesAt_length (s : State) (a n : Nat) : (bytesAt s a n).length = n := by simp [bytesAt]

theorem bytes_le_four (n : AccessSize) : n.bytes ≤ 4 := by cases n <;> decide

/-- The value read is a number of as many bytes as the access has. -/
theorem bufferValue_toNat (s : State) (a : Nat) (n : AccessSize) :
    (bufferValue s a n).toNat = leValue (bytesAt s a n.bytes) := by
  have hlt := leValue_lt (bytesAt s a n.bytes)
  rw [bytesAt_length] at hlt
  have hle : 2 ^ (8 * n.bytes) ≤ 2 ^ 32 := Nat.pow_le_pow_right (by omega) (by have := bytes_le_four n; omega)
  rw [bufferValue, BitVec.toNat_ofNat, Nat.mod_eq_of_lt (by omega)]

theorem bufferValue_lt (s : State) (a : Nat) (n : AccessSize) : (bufferValue s a n).toNat < 2 ^ (8 * n.bytes) := by
  have hlt := leValue_lt (bytesAt s a n.bytes)
  rwa [bytesAt_length, ← bufferValue_toNat] at hlt

/-- Byte `i` of a word, as leBytes lists it. -/
theorem extractLsb'_eq_leBytes (v : Word) {n i : Nat} (hi : i < n) :
    v.extractLsb' (8 * i) 8 = (leBytes n v.toNat).getD i 0 := by
  rw [leBytes_getD n v.toNat i hi]
  exact BitVec.eq_of_toNat_eq (by rw [BitVec.extractLsb'_toNat, BitVec.toNat_ofNat, Nat.shiftRight_eq_div_pow])

/-- Byte `i` of the value read is the byte at offset `a + i`. -/
theorem bufferValue_byte (s : State) (a : Nat) {n : AccessSize} {i : Nat} (hi : i < n.bytes) :
    (bufferValue s a n).extractLsb' (8 * i) 8 = byteAt s (a + i) := by
  have hbytes := leBytes_leValue (bytesAt s a n.bytes)
  rw [bytesAt_length] at hbytes
  rw [extractLsb'_eq_leBytes _ hi, bufferValue_toNat, hbytes]
  simp [bytesAt, List.getD, hi]

theorem regionOf_inBuf {a : Nat} (h : 0x4000 ≤ a ∧ a ≤ 0x7FFF) : regionOf a = .inBuf := by
  unfold regionOf
  rw [if_neg (by omega), if_neg (by omega), if_neg (by omega), if_neg (by omega), if_neg (by omega), if_pos h.2]

/-- A legal write to CW, IN or OUT while BUSY = 0. -/
theorem hostWrite_buffer {a : Offset} {n : AccessSize} {s : State} (hb : s.busy = false)
    (hl : accessLegal a.toNat n = true)
    (hr : regionOf a.toNat = .cwBuf ∨ regionOf a.toNat = .inBuf ∨ regionOf a.toNat = .outBuf) (v : Word) :
    hostWrite a n v s = .next (storeBytes a.toNat (leBytes n.bytes v.toNat) (answer 0 false s)) := by
  rcases hr with hr | hr | hr <;> simp [hostWrite, hl, hostWriteEffect, hr, bufferWrite, hb]

/-- A sample is the little-endian value of its two bytes (20_memory R85). -/
theorem sampleAt_toNat (s : State) (a : Nat) :
    (sampleAt s a).toNat = (byteAt s a).toNat + 256 * (byteAt s (a + 1)).toNat := by
  rw [sampleAt, BitVec.toNat_append, ← Nat.shiftLeft_add_eq_or_of_lt (byteAt s a).isLt, Nat.shiftLeft_eq]
  omega

/-- A 32-bit read holds the sample at its offset in the low half and the next one in the high half. -/
theorem bufferValue_four (s : State) (a : Nat) : bufferValue s a .four = sampleAt s (a + 2) ++ sampleAt s a := by
  refine BitVec.eq_of_toNat_eq ?_
  rw [bufferValue_toNat, BitVec.toNat_append, ← Nat.shiftLeft_add_eq_or_of_lt (sampleAt s a).isLt, Nat.shiftLeft_eq,
    sampleAt_toNat, sampleAt_toNat]
  simp only [bytesAt, AccessSize.bytes, List.range_succ, List.range_zero, List.nil_append, List.cons_append,
    List.map_cons, List.map_nil, leValue, Nat.add_zero, Nat.add_assoc, Nat.reduceAdd]
  omega

/-- Settles O49: a write stores its little-endian bytes, and a read answers the little-endian value of the bytes. -/
theorem bufferAccessesAreLittleEndian : Obligations.BufferAccessesAreLittleEndian := by
  refine ⟨fun s a n v hb hl hr => ?_, fun s a n hl hr => ?_, fun s m hm => ?_⟩
  · have hread : ReadableBuffer a.toNat s := by unfold ReadableBuffer; tauto
    have hlen := leBytes_length n.bytes v.toNat
    refine ⟨_, _, hostWrite_buffer hb hl hr v, fun i hi => ?_, ?_, rfl, hostRead_buffer hl hread, ?_⟩
    · rw [byteAt_storeBytes, if_pos (by omega), Nat.add_sub_cancel_left, extractLsb'_eq_leBytes v hi]
    · have hout := storeBytes_keeps_outside a.toNat (leBytes n.bytes v.toNat) (answer 0 false s)
      rw [hlen] at hout
      exact hout
    · have hstored := bytesAt_storeBytes a.toNat (leBytes n.bytes v.toNat) (answer 0 false s)
      rw [hlen] at hstored
      exact (bufferValue_toNat _ _ _).trans (by rw [hstored, leValue_leBytes])
  · exact ⟨_, hostRead_buffer hl hr, bufferValue_lt s a.toNat n, fun i hi => bufferValue_byte s a.toNat hi⟩
  · have ha : (BitVec.ofNat 16 (0x4000 + 4 * m)).toNat = inBase + 2 * (2 * m) := by
      rw [BitVec.toNat_ofNat, inBase]; omega
    have hregion : regionOf (inBase + 2 * (2 * m)) = .inBuf :=
      regionOf_inBuf (by unfold inBase; omega)
    have hl : accessLegal (inBase + 2 * (2 * m)) .four = true := by
      rw [accessLegal_iff, inBase, AccessSize.bytes]; omega
    rw [← ha] at hregion hl
    refine ⟨_, hostRead_buffer hl (.inr (.inl hregion)), ?_⟩
    exact (bufferValue_four s _).trans (by rw [ha]; rfl)

end Sys2Proof.Proofs

/-! PROOFS. The command encoding (30_encoding R100 to R118): the decoder is the row that OP selects followed by that row's
check, and encoding and decoding are inverse to each other. -/

namespace Sys2Proof.Proofs

open Sys2Proof.Machine

/-! ### The row that OP selects -/

/-- The command of the row that OP selects (30_encoding R108), before the row's reserved bits are looked at. -/
def rowCommand (w : Word) : Option Instr :=
  match opField w with
  | 0x00 => some .nop
  | 0x01 => some .init
  | 0x02 => some .clear
  | 0x03 => some (.firRun (lField w))
  | 0x04 => some .analyze
  | 0x05 => some .chunk
  | 0x06 => some (.candPush (cntField w) (lcntField w))
  | 0x08 => some (.rsEnc (dField w) (kField w))
  | 0x09 => some (.rsDec (dField w) (kField w))
  | 0x0A => some (.synth (symField w))
  | _ => none

/-- The decoder selects a row by OP, then checks that row's pattern (30_encoding R109). -/
theorem decode_eq_selectRow (w : Word) :
    decode w = (rowCommand w).elim .illegalOp (fun i => selectRow w (rowPattern i) (rowMask i) i) := by
  unfold decode rowCommand
  split <;> simp [*, rowPattern, rowMask]

theorem decode_illegalOp_iff (w : Word) : decode w = .illegalOp ↔ rowCommand w = none := by
  rw [decode_eq_selectRow]
  cases rowCommand w with
  | none => simp
  | some i => simp only [Option.elim_some, selectRow]; split <;> simp

theorem decode_reservedField_iff (w : Word) :
    decode w = .reservedField ↔ ∃ i, rowCommand w = some i ∧ w &&& rowMask i ≠ rowPattern i := by
  rw [decode_eq_selectRow]
  cases rowCommand w with
  | none => simp
  | some i => simp [selectRow]

theorem decode_ok_iff (w : Word) (i : Instr) :
    decode w = .ok i ↔ rowCommand w = some i ∧ w &&& rowMask i = rowPattern i := by
  rw [decode_eq_selectRow]
  cases rowCommand w with
  | none => simp
  | some j =>
    simp only [Option.elim_some, selectRow, Option.some.injEq]
    split
    · next h => simp only [Decoded.ok.injEq]; exact ⟨fun e => ⟨e, e ▸ h⟩, fun e => e.1⟩
    · next h => simp only [reduceCtorEq, false_iff]; rintro ⟨rfl, e⟩; exact h e

theorem rowCommand_eq_none_iff (w : Word) : rowCommand w = none ↔ opField w = 7 ∨ 0x0B ≤ opField w := by
  unfold rowCommand
  split
  case h_11 =>
    simp only [true_iff]
    grind
  all_goals simp only [reduceCtorEq, false_iff]; omega

theorem opField_of_rowCommand {w : Word} {i : Instr} (h : rowCommand w = some i) : opField w = (rowPattern i).toNat := by
  unfold rowCommand at h
  split at h <;> cases h <;> assumption

/-- A field's value fits the field, so a selected command is well formed (30_encoding R107, R116). -/
theorem wellFormed_of_rowCommand {w : Word} {i : Instr} (h : rowCommand w = some i) : i.wellFormed = true := by
  have fits (start len : Nat) : (w.extractLsb' start len).toNat < 2 ^ len := BitVec.isLt _
  have hl := fits 16 16
  have hcnt := fits 8 2
  have hlcnt := fits 10 2
  have hk := fits 8 8
  have hd := fits 16 8
  have hsym := fits 8 4
  unfold rowCommand at h
  split at h <;> cases h <;> grind [Instr.wellFormed, lField, cntField, lcntField, kField, dField, symField]

/-! ### The bits of a row (30_encoding R101) -/

/-- A row's mask covers OP and the reserved bits of its format. -/
theorem rowMask_eq (i : Instr) : rowMask i = 0xFF ||| reservedBits (rowPattern i).toNat := by
  cases i <;> simp [rowMask, rowPattern, reservedBits]

theorem reservedBits_and_opMask (i : Instr) : 0xFF &&& reservedBits (rowPattern i).toNat = 0 := by
  cases i <;> simp [rowPattern, reservedBits]

/-- A field put back in its place is the word's bits in that place. -/
theorem field_shiftLeft_eq_and (w : Word) (start len : Nat) :
    BitVec.ofNat 32 (w.extractLsb' start len).toNat <<< start = w &&& (BitVec.ofNat 32 (2 ^ len - 1) <<< start) := by
  refine BitVec.eq_of_getLsbD_eq fun j hj => ?_
  rw [BitVec.getLsbD_and, BitVec.getLsbD_shiftLeft, BitVec.getLsbD_shiftLeft, BitVec.getLsbD_ofNat, BitVec.getLsbD_ofNat,
    Nat.testBit_two_pow_sub_one, BitVec.testBit_toNat, BitVec.getLsbD_extractLsb']
  by_cases hs : j < start
  · simp [hs]
  · rw [Nat.add_sub_cancel' (Nat.le_of_not_lt hs)]
    simp only [hs, hj, show j - start < 32 by omega, decide_true, decide_false, Bool.not_false, Bool.true_and]
    exact Bool.and_comm _ _

theorem and_opMask_eq_pattern {w : Word} {i : Instr} (h : opField w = (rowPattern i).toNat) :
    w &&& 0xFF = rowPattern i := by
  have hop := field_shiftLeft_eq_and w 0 8
  simp only [BitVec.shiftLeft_zero] at hop
  calc w &&& 0xFF = BitVec.ofNat 32 (opField w) := hop.symm
    _ = rowPattern i := by rw [h, BitVec.ofNat_toNat, BitVec.setWidth_eq]

/-- The check of a selected row passes exactly when no reserved bit of its format is 1 (30_encoding R109 step 2): the
row's mask adds only OP's bits, which the pattern holds. -/
theorem row_matches_iff {w : Word} {i : Instr} (h : rowCommand w = some i) :
    w &&& rowMask i = rowPattern i ↔ w &&& reservedBits (opField w) = 0 := by
  have hop := opField_of_rowCommand h
  have hlow := and_opMask_eq_pattern hop
  have hmask : w &&& rowMask i = rowPattern i ||| w &&& reservedBits (opField w) := by
    rw [rowMask_eq, BitVec.and_or_distrib_left, hlow, hop]
  have hdisj : rowPattern i &&& reservedBits (opField w) = 0 := by
    rw [← hlow, BitVec.and_assoc, hop, reservedBits_and_opMask]; exact BitVec.and_zero
  rw [hmask]
  constructor
  · intro he
    have hsub : (rowPattern i ||| w &&& reservedBits (opField w)) &&& (w &&& reservedBits (opField w))
        = w &&& reservedBits (opField w) := by ext j hj; simp +contextual
    rw [← hsub, he, BitVec.and_comm w, ← BitVec.and_assoc, hdisj]
    exact BitVec.zero_and
  · intro hr
    rw [hr]; exact BitVec.or_zero

/-- Settles O3: OP selects a row or none, and the selected row's check looks at the reserved bits alone. -/
theorem decodeOutcomesByOpcodeAndReservedBits : Obligations.DecodeOutcomesByOpcodeAndReservedBits := by
  intro w
  rw [decode_illegalOp_iff, decode_reservedField_iff, ← rowCommand_eq_none_iff]
  simp only [decode_ok_iff]
  cases h : rowCommand w with
  | none => simp
  | some i => simp [row_matches_iff h]

/-! ### Decoding an encoded command -/

/-- An operand put above the bits of a word adds its value at the weight of its place. -/
theorem toNat_or_ofNat_shiftLeft {a : Word} {x n len : Nat} (ha : a.toNat < 2 ^ n) (hx : x < 2 ^ len)
    (hlen : n + len ≤ 32) : (a ||| BitVec.ofNat 32 x <<< n).toNat = a.toNat + x * 2 ^ n := by
  have hval : (BitVec.ofNat 32 x).toNat = x :=
    Nat.mod_eq_of_lt (lt_of_lt_of_le hx (Nat.pow_le_pow_right (by decide) (by omega)))
  have hfit : x * 2 ^ n < 2 ^ 32 := calc
    x * 2 ^ n < 2 ^ len * 2 ^ n := Nat.mul_lt_mul_of_pos_right hx (Nat.two_pow_pos n)
    _ = 2 ^ (len + n) := (Nat.pow_add 2 len n).symm
    _ ≤ 2 ^ 32 := Nat.pow_le_pow_right (by decide) (by omega)
  rw [BitVec.toNat_or, BitVec.toNat_shiftLeft, hval, Nat.shiftLeft_eq, Nat.mod_eq_of_lt hfit, Nat.or_comm,
    ← Nat.shiftLeft_eq, ← Nat.shiftLeft_add_eq_or_of_lt ha, Nat.add_comm]

/-- OP and two operands side by side (formats C and R, 30_encoding R104, R105). -/
theorem toNat_twoOperands {op : Word} {x y lx ly : Nat} (hop : op.toNat < 2 ^ 8) (hx : x < 2 ^ lx) (hy : y < 2 ^ ly)
    (hlen : 8 + lx + ly ≤ 32) :
    (op ||| BitVec.ofNat 32 x <<< 8 ||| BitVec.ofNat 32 y <<< (8 + lx)).toNat
      = op.toNat + x * 2 ^ 8 + y * 2 ^ (8 + lx) := by
  have hlow := toNat_or_ofNat_shiftLeft hop hx (by omega)
  have hbelow : op.toNat + x * 2 ^ 8 < 2 ^ (8 + lx) := by rw [Nat.pow_add]; omega
  rw [toNat_or_ofNat_shiftLeft (hlow ▸ hbelow) hy hlen, hlow]

/-- The value of a field, by division. -/
theorem toNat_extractLsb'_eq (w : Word) (start len : Nat) :
    (w.extractLsb' start len).toNat = w.toNat / 2 ^ start % 2 ^ len := by
  rw [BitVec.extractLsb'_toNat, Nat.shiftRight_eq_div_pow]

/-- The encoded word as a number: OP and each operand at the weight of its field (30_encoding R101, R103 to R106). -/
def encodedValue : Instr → Nat
  | .nop => 0
  | .init => 1
  | .clear => 2
  | .firRun l => 3 + l * 2 ^ 16
  | .analyze => 4
  | .chunk => 5
  | .candPush cnt lcnt => 6 + cnt * 2 ^ 8 + lcnt * 2 ^ 10
  | .rsEnc d k => 8 + k * 2 ^ 8 + d * 2 ^ 16
  | .rsDec d k => 9 + k * 2 ^ 8 + d * 2 ^ 16
  | .synth sym => 10 + sym * 2 ^ 8

theorem toNat_encode {i : Instr} (h : i.wellFormed = true) : (encode i).toNat = encodedValue i := by
  cases i with
  | nop | init | clear | analyze | chunk => rfl
  | firRun l =>
    have hl : l ≤ 65535 := by simpa [Instr.wellFormed] using h
    exact toNat_or_ofNat_shiftLeft (len := 16) (by decide) (by omega) (by decide)
  | synth sym =>
    have hsym : sym ≤ 15 := by simpa [Instr.wellFormed] using h
    exact toNat_or_ofNat_shiftLeft (len := 4) (by decide) (by omega) (by decide)
  | candPush cnt lcnt =>
    obtain ⟨hcnt, hlcnt⟩ : cnt ≤ 3 ∧ lcnt ≤ 3 := by simpa [Instr.wellFormed] using h
    exact toNat_twoOperands (lx := 2) (ly := 2) (by decide) (by omega) (by omega) (by decide)
  | rsEnc d k | rsDec d k =>
    obtain ⟨hd, hk⟩ : d ≤ 255 ∧ k ≤ 255 := by simpa [Instr.wellFormed] using h
    exact toNat_twoOperands (lx := 8) (ly := 8) (by decide) (by omega) (by omega) (by decide)

theorem opField_encode {i : Instr} (h : i.wellFormed = true) : opField (encode i) = (rowPattern i).toNat := by
  rw [opField, toNat_extractLsb'_eq, toNat_encode h]
  cases i <;> simp only [encodedValue, rowPattern] <;> grind

theorem formatR_fields {w : Word} {op d k : Nat} (hw : w.toNat = op + k * 2 ^ 8 + d * 2 ^ 16) (hop : op < 2 ^ 8)
    (hd : d ≤ 255) (hk : k ≤ 255) : dField w = d ∧ kField w = k := by
  rw [dField, kField, toNat_extractLsb'_eq, toNat_extractLsb'_eq, hw]
  omega

/-- Every field of an encoded command holds the operand it was written from, so OP selects the command's own row. -/
theorem rowCommand_encode {i : Instr} (h : i.wellFormed = true) : rowCommand (encode i) = some i := by
  have hop := opField_encode h
  have hval := toNat_encode h
  cases i with
  | nop | init | clear | analyze | chunk => rfl
  | firRun l =>
    have hl : l ≤ 65535 := by simpa [Instr.wellFormed] using h
    have hfield : lField (encode (.firRun l)) = l := by
      rw [lField, toNat_extractLsb'_eq, hval, encodedValue]; omega
    simp [rowCommand, hop, rowPattern, hfield]
  | synth sym =>
    have hsym : sym ≤ 15 := by simpa [Instr.wellFormed] using h
    have hfield : symField (encode (.synth sym)) = sym := by
      rw [symField, toNat_extractLsb'_eq, hval, encodedValue]; omega
    simp [rowCommand, hop, rowPattern, hfield]
  | candPush cnt lcnt =>
    obtain ⟨hcnt, hlcnt⟩ : cnt ≤ 3 ∧ lcnt ≤ 3 := by simpa [Instr.wellFormed] using h
    have hlow : cntField (encode (.candPush cnt lcnt)) = cnt := by
      rw [cntField, toNat_extractLsb'_eq, hval, encodedValue]; omega
    have hhigh : lcntField (encode (.candPush cnt lcnt)) = lcnt := by
      rw [lcntField, toNat_extractLsb'_eq, hval, encodedValue]; omega
    simp [rowCommand, hop, rowPattern, hlow, hhigh]
  | rsEnc d k | rsDec d k =>
    obtain ⟨hd, hk⟩ : d ≤ 255 ∧ k ≤ 255 := by simpa [Instr.wellFormed] using h
    obtain ⟨hfieldD, hfieldK⟩ := formatR_fields hval (by decide) hd hk
    simp [rowCommand, hop, rowPattern, hfieldD, hfieldK]

/-- The command's row is checked against its own word (`EncodesRow`, 30_encoding R108). -/
theorem encode_selects_row {i : Instr} (h : i.wellFormed = true) : encode i &&& rowMask i = rowPattern i := by
  cases i with
  | nop => exact Laws.EncodesRow.nop h
  | init => exact Laws.EncodesRow.init h
  | clear => exact Laws.EncodesRow.clear h
  | firRun l => exact Laws.EncodesRow.firRun l h
  | analyze => exact Laws.EncodesRow.analyze h
  | chunk => exact Laws.EncodesRow.chunk h
  | candPush cnt lcnt => exact Laws.EncodesRow.candPush cnt lcnt h
  | rsEnc d k => exact Laws.EncodesRow.rsEnc d k h
  | rsDec d k => exact Laws.EncodesRow.rsDec d k h
  | synth sym => exact Laws.EncodesRow.synth sym h

/-- Settles O1: the encoded word selects the command's row, and each field gives back its operand. -/
theorem decodeOfEncodeIsTheCommand : Obligations.DecodeOfEncodeIsTheCommand := by
  intro i h
  exact ⟨(decode_ok_iff _ _).2 ⟨rowCommand_encode h, encode_selects_row h⟩, if_pos h⟩

/-! ### Encoding a decoded command -/

/-- Encoding the command of the row that a word selects puts the word's operand bits back beside the row's pattern: the
row's operand fields are exactly the bits outside its mask. -/
theorem encode_of_rowCommand {w : Word} {i : Instr} (h : rowCommand w = some i) :
    encode i = rowPattern i ||| w &&& ~~~ rowMask i := by
  unfold rowCommand at h
  split at h <;> cases h
  case h_4.refl | h_10.refl =>
    simp only [encode, lField, symField, field_shiftLeft_eq_and]
    congr 2
    simp only [rowMask]
    decide
  case h_7.refl | h_8.refl | h_9.refl =>
    simp only [encode, cntField, lcntField, kField, dField, field_shiftLeft_eq_and, BitVec.or_assoc,
      ← BitVec.and_or_distrib_left]
    congr 2
    simp only [rowMask]
    decide
  all_goals simp [encode, rowPattern, rowMask]

/-- Settles O2: a row's pattern holds the word's masked bits, and its operand fields hold all the others. -/
theorem encodeOfDecodeIsTheWord : Obligations.EncodeOfDecodeIsTheWord := by
  intro w i h
  obtain ⟨hrow, hmatch⟩ := (decode_ok_iff w i).1 h
  refine ⟨wellFormed_of_rowCommand hrow, ?_⟩
  calc encode i = w &&& rowMask i ||| w &&& ~~~ rowMask i := by rw [encode_of_rowCommand hrow, hmatch]
    _ = w := by rw [← BitVec.and_or_distrib_left, BitVec.or_not_self, BitVec.and_allOnes]

/-! ### Words written out -/

/-- Settles O4, by running the decoder on the fourteen words. -/
theorem writtenOutWordsDecode : Obligations.WrittenOutWordsDecode := by
  unfold Obligations.WrittenOutWordsDecode
  decide

end Sys2Proof.Proofs

/-! PROOFS. The acoustic wire format (30_encoding R111 to R114): symbols and bytes of a frame, the shape of a frame, and
the frames of a string. -/

namespace Sys2Proof.Proofs

open Sys2Proof.Machine

/-! ### Symbols (R112) -/

/-- A byte is its low and high nibble put together. -/
theorem nibbles_or_eq (b : Byte) : BitVec.ofNat 8 (b.toNat % 16) ||| (BitVec.ofNat 8 (b.toNat / 16) <<< 4) = b := by
  have hb := b.isLt
  have hlow : b.toNat % 16 < 2 ^ 4 := Nat.mod_lt _ (by decide)
  have hmod : b.toNat % 16 % 2 ^ 8 = b.toNat % 16 := Nat.mod_eq_of_lt (by omega)
  have hdiv : b.toNat / 16 % 2 ^ 8 = b.toNat / 16 := Nat.mod_eq_of_lt (by omega)
  have hshift : b.toNat / 16 * 2 ^ 4 % 2 ^ 8 = b.toNat / 16 * 2 ^ 4 := Nat.mod_eq_of_lt (by omega)
  refine BitVec.eq_of_toNat_eq ?_
  rw [BitVec.toNat_or, BitVec.toNat_shiftLeft, BitVec.toNat_ofNat, BitVec.toNat_ofNat, hmod, hdiv, Nat.shiftLeft_eq,
    hshift, Nat.or_comm, ← Nat.shiftLeft_eq, ← Nat.shiftLeft_add_eq_or_of_lt hlow, Nat.shiftLeft_eq]
  exact Nat.div_add_mod' _ _

theorem nibblesToBytes_frameSymbols (fr : List Byte) : nibblesToBytes (frameSymbols fr) = fr := by
  induction fr with
  | nil => rfl
  | cons b bs ih => rw [frameSymbols, nibblesToBytes, nibbles_or_eq, ih]

theorem frameSymbols_length (fr : List Byte) : (frameSymbols fr).length = 2 * fr.length := by
  induction fr with
  | nil => rfl
  | cons b bs ih => simp only [frameSymbols, List.length_cons, ih]; omega

theorem frameSymbols_getD (fr : List Byte) {i : Nat} (hi : i < fr.length) :
    (frameSymbols fr).getD (2 * i) 0 = (fr.getD i 0).toNat % 16
      ∧ (frameSymbols fr).getD (2 * i + 1) 0 = (fr.getD i 0).toNat / 16 := by
  induction fr generalizing i with
  | nil => simp at hi
  | cons b bs ih =>
    cases i with
    | zero => simp [frameSymbols]
    | succ i =>
      rw [Nat.mul_succ]
      simpa [frameSymbols] using ih (Nat.lt_of_succ_lt_succ hi)

/-! ### The shape of a frame (R111) -/

theorem polyAdd_length (p q : List Byte) : (polyAdd p q).length = max p.length q.length := by
  induction p generalizing q with
  | nil => simp [polyAdd]
  | cons a p ih =>
    cases q with
    | nil => simp [polyAdd]
    | cons b q => simp [polyAdd, ih, Nat.succ_max_succ]

/-- g(x) has degree K (41_reed_solomon R154). -/
theorem genPoly_length (k : Nat) : (genPoly k).length = k + 1 := by
  induction k with
  | zero => rfl
  | succ k ih => simp [genPoly, polyAdd_length, polyScale, ih]

/-- The shift register keeps one byte per tap (41_reed_solomon R156). -/
theorem encodeByte_length {taps reg : List Byte} (d : Byte) (h : reg.length = taps.length) :
    (encodeByte taps reg d).length = taps.length := by
  simp only [encodeByte, List.length_zipWith, List.length_append, List.length_drop, List.length_singleton]
  omega

theorem foldl_encodeByte_length {taps reg : List Byte} (d : List Byte) (h : reg.length = taps.length) :
    (d.foldl (encodeByte taps) reg).length = taps.length := by
  induction d generalizing reg with
  | nil => exact h
  | cons b d ih => exact ih (encodeByte_length b h)

/-- Encode(d, K) gives K bytes (41_reed_solomon R156). -/
theorem rsEncode_length (d : List Byte) (k : Nat) : (rsEncode d k).length = k := by
  have htaps : ((genPoly k).take k).reverse.length = k := by simp [genPoly_length]
  exact (foldl_encodeByte_length d (by rw [List.length_replicate, htaps])).trans htaps

theorem frameData_length (c : Cfg) {n : Nat} {payload : List Byte} (hn : 2 ≤ n) (h : payload.length ≤ n - 1) :
    (frameData c n payload).length = n + 1 := by
  simp only [frameData, List.length_cons, List.length_append, List.length_replicate]
  omega

theorem frameOf_length (c : Cfg) {n : Nat} (k : Nat) {payload : List Byte} (hn : 2 ≤ n) (h : payload.length ≤ n - 1) :
    (frameOf c n k payload).length = n + 1 + k := by
  rw [frameOf, List.length_append, frameData_length c hn h, rsEncode_length]

/-- The parity of a frame is that of its data bytes. -/
theorem frameOf_parity (c : Cfg) {n : Nat} (k : Nat) {payload : List Byte} (hn : 2 ≤ n) (h : payload.length ≤ n - 1) :
    (frameOf c n k payload).drop (n + 1) = rsEncode ((frameOf c n k payload).take (n + 1)) k := by
  have hlen := frameData_length c hn h
  rw [frameOf, List.drop_left' hlen, List.take_left' hlen]

/-- The payload of a frame is the string's piece, zero-padded to N − 1 bytes. -/
theorem framePayload_frameOf (c : Cfg) {n : Nat} (k : Nat) {payload : List Byte} (h : payload.length ≤ n - 1) :
    framePayload n (frameOf c n k payload) = payload ++ List.replicate (n - 1 - payload.length) 0 := by
  have hlen : (payload ++ List.replicate (n - 1 - payload.length) (0 : Byte)).length = n - 1 := by
    rw [List.length_append, List.length_replicate]; omega
  exact List.take_left' hlen

/-! ### The pieces of a string (R114) -/

theorem pieces_nil (size fuel : Nat) : pieces size fuel [] = [] := by
  cases fuel <;> rfl

theorem length_le_of_mem_pieces {size fuel : Nat} {t p : List Byte} (h : p ∈ pieces size fuel t) : p.length ≤ size := by
  induction fuel generalizing t with
  | zero => simp [pieces] at h
  | succ fuel ih =>
    cases t with
    | nil => simp [pieces] at h
    | cons b bs =>
      rw [pieces, List.mem_cons] at h
      rcases h with rfl | h
      · exact List.length_take_le _ _
      · exact ih h

/-- The pieces, each padded to `size` bytes, are the string and padding shorter than one piece: only the last piece can be
short. -/
theorem pieces_padded_flatten {size : Nat} (hsize : 1 ≤ size) {fuel : Nat} {t : List Byte} (h : t.length ≤ fuel) :
    ∃ pad, pad < size ∧ ((pieces size fuel t).map fun p => p ++ List.replicate (size - p.length) 0).flatten
      = t ++ List.replicate pad 0 := by
  induction fuel generalizing t with
  | zero => exact ⟨0, hsize, by simp [pieces, List.length_eq_zero_iff.1 (Nat.le_zero.1 h)]⟩
  | succ fuel ih =>
    cases t with
    | nil => exact ⟨0, hsize, by simp [pieces]⟩
    | cons b bs =>
      by_cases hlen : size ≤ (b :: bs).length
      · obtain ⟨pad, hpad, hrest⟩ := ih (t := (b :: bs).drop size) (by rw [List.length_drop]; omega)
        refine ⟨pad, hpad, ?_⟩
        rw [pieces, List.map_cons, List.flatten_cons, hrest, List.length_take, Nat.min_eq_left hlen, Nat.sub_self,
          List.replicate_zero, List.append_nil, ← List.append_assoc, List.take_append_drop]
      · have hshort : (b :: bs).length ≤ size := Nat.le_of_not_le hlen
        refine ⟨size - (b :: bs).length, Nat.sub_lt hsize (Nat.succ_pos _), ?_⟩
        rw [pieces, List.take_of_length_le hshort, List.drop_of_length_le hshort, pieces_nil]
        simp

/-- Settles O34: the symbols are the nibbles in order, and the pieces of S ++ (0x00) are all full but the last. -/
theorem framesCarryTheString : Obligations.FramesCarryTheString := by
  refine ⟨fun fr => ⟨nibblesToBytes_frameSymbols fr, frameSymbols_length fr, fun i hi => frameSymbols_getD fr hi⟩,
    fun c n k str hn => ⟨fun fr hfr => ?_, ?_⟩⟩
  · obtain ⟨piece, hpiece, rfl⟩ := List.mem_map.1 hfr
    have hlen := length_le_of_mem_pieces hpiece
    exact ⟨frameOf_length c k hn hlen, rfl, rfl, frameOf_parity c k hn hlen⟩
  · obtain ⟨pad, hpad, hflat⟩ := pieces_padded_flatten (size := n - 1) (by omega) (t := str ++ [0])
      (fuel := str.length + 1) (by simp)
    refine ⟨pad, hpad, ?_⟩
    rw [← hflat, framesOfString, List.map_map]
    congr 1
    exact List.map_congr_left fun piece hpiece => framePayload_frameOf c k (length_le_of_mem_pieces hpiece)

end Sys2Proof.Proofs

/-! PROOFS. Which error each command raises (60_exceptions R301, R306, 30_encoding R110, 40_control R132), and that an
error-free command leaves the error record and the ERR interrupt alone. -/

namespace Sys2Proof.Proofs

open Sys2Proof.Machine

/-! ### Every command but INIT is its gate around its effect -/

/-- The argument check a command makes (30_encoding R110). -/
def argBad : Instr → Bool
  | .firRun l => firArgBad l
  | .candPush cnt lcnt => pushArgBad cnt lcnt
  | .rsEnc d k => rsArgBad d k
  | .rsDec d k => rsArgBad d k
  | _ => false

/-- What a command other than INIT does once its checks pass. -/
def commandEffect (i : Instr) (s : State) : State :=
  match i with
  | .nop => s
  | .init => s
  | .clear => clearSession params s
  | .firRun l => firRunEffect params l s
  | .analyze => analyzeEffect params s
  | .chunk => chunkEffect params s
  | .candPush cnt lcnt => candPushEffect params.cfg cnt lcnt s
  | .rsEnc d k => rsEncEffect d k s
  | .rsDec d k => rsDecEffect d k s
  | .synth sym => storeOut (toneBurst params s.latched sym) s

theorem exec_eq_gated {i : Instr} (hi : i ≠ .init) (s : State) :
    exec i s = gated (needsReady i) (argBad i) s (commandEffect i s) := by
  cases i with
  | init => exact absurd rfl hi
  | _ => rfl

/-- The checks that commands make are the illegal arguments of 30_encoding R110, for operands that fit their fields. -/
theorem argBad_iff {i : Instr} (h : i.wellFormed = true) : argBad i = true ↔ BadArgument i := by
  cases i with
  | nop | init | clear | analyze | chunk | synth => simp [argBad, BadArgument]
  | firRun l =>
    simp only [argBad, BadArgument, firArgBad, Bool.or_eq_true, decide_eq_true_eq]
    exact Iff.rfl
  | rsEnc d k | rsDec d k => simp [argBad, BadArgument, rsArgBad]
  | candPush cnt lcnt =>
    obtain ⟨hcnt, hlcnt⟩ : cnt ≤ 3 ∧ lcnt ≤ 3 := by simpa [Instr.wellFormed] using h
    simp only [argBad, BadArgument, pushArgBad, Bool.or_eq_true, decide_eq_true_eq]
    omega

theorem gated_notReady {needs bad : Bool} {s go : State} (hn : needs = true) (hr : s.ready = false) :
    gated needs bad s go = .next (report .notReady s) := by
  simp [gated, raise, hn, hr]

theorem gated_badArg {needs bad : Bool} {s go : State} (hpass : ¬(needs = true ∧ s.ready = false))
    (hb : bad = true) : gated needs bad s go = .next (report .badArg s) := by
  simp_all [gated, raise]

/-! ### INIT's validation -/

theorem settingsOk_iff (b : Band) (t : Settings) : settingsOk b t = true ↔
    t.fs.toNat = rate b ∧ 2 ≤ t.n.toNat ∧ t.n.toNat + t.k.toNat ≤ 253 ∧ 2 ≤ t.maxstr.toNat ∧ t.maxcomb ≠ 0 := by
  simp only [settingsOk, Bool.and_eq_true, decide_eq_true_eq, and_assoc]

theorem bandOfBits_cases (b : BitVec 2) :
    (b = 0 ∧ bandOfBits b = some .low) ∨ (b = 1 ∧ bandOfBits b = some .mid) ∨ (b = 2 ∧ bandOfBits b = some .high)
      ∨ (b = 3 ∧ bandOfBits b = none) := by
  revert b
  decide

/-- The six conditions of 40_control R132 say that the settings name no band, or fail its band's checks. -/
theorem settingsInvalid_iff (t : Settings) :
    SettingsInvalid t ↔ ∀ b, bandOfBits t.band = some b → ¬settingsOk b t = true := by
  simp only [settingsOk_iff, SettingsInvalid]
  rcases bandOfBits_cases t.band with ⟨h, hb⟩ | ⟨h, hb⟩ | ⟨h, hb⟩ | ⟨h, hb⟩ <;> rw [hb]
  case inr.inr.inr => simp [h]
  all_goals
    simp only [h, Option.some.injEq, forall_eq', rate]
    grind

theorem exec_init_invalid {s : State} (h : SettingsInvalid s.settings) : exec .init s = initFailed s := by
  change initWith params s = initFailed s
  unfold initWith
  split
  · rfl
  · next b hb => exact if_neg ((settingsInvalid_iff _).1 h b hb)

theorem exec_init_valid {s : State} (h : ¬SettingsInvalid s.settings) :
    ∃ b, exec .init s = .next (initSession params b s) := by
  simp only [settingsInvalid_iff, not_forall, not_not] at h
  obtain ⟨b, hb, hok⟩ := h
  refine ⟨b, ?_⟩
  change initWith params s = _
  simp only [initWith, hb, hok, if_true]

/-! ### The ERR interrupt -/

/-- IRQ_STATUS.ERR is unchanged. -/
def KeepsErrIrq (s t : State) : Prop := t.irqStatus.getLsbD 3 = s.irqStatus.getLsbD 3

theorem KeepsErrIrq.of_eq {s t : State} (h : t.irqStatus = s.irqStatus) : KeepsErrIrq s t := by rw [KeepsErrIrq, h]

theorem KeepsErrIrq.trans {s t u : State} (h : KeepsErrIrq s t) (k : KeepsErrIrq t u) : KeepsErrIrq s u :=
  Eq.trans k h

theorem setFrameOk_keepsErrIrq (s : State) : KeepsErrIrq s (setFrameOk s) := by simp [KeepsErrIrq]

theorem setDoneIrq_keepsErrIrq (s : State) : KeepsErrIrq s (setDoneIrq s) := by simp [KeepsErrIrq]

theorem storePay_irqStatus (i : Nat) (b : Byte) (s : State) : (storePay i b s).irqStatus = s.irqStatus := by
  unfold storePay
  split <;> rfl

/-- The payload loop raises DONE at most (45_decoder R260). -/
theorem appendPayload_keepsErrIrq (bs : List Byte) (s : State) : KeepsErrIrq s (appendPayload bs s) := by
  induction bs generalizing s with
  | nil => exact .of_eq rfl
  | cons b bs ih =>
    unfold appendPayload
    split
    · exact .trans (.of_eq (storePay_irqStatus _ 0 s)) (setDoneIrq_keepsErrIrq _)
    · split
      · exact .trans (.of_eq (storePay_irqStatus _ b s)) (ih _)
      · exact ih _

theorem frameAttempt_keepsErrIrq (c : Cfg) (s : State) : KeepsErrIrq s (frameAttempt c s) := by
  unfold frameAttempt
  simp only
  split
  · exact .of_eq rfl
  · exact .trans (setFrameOk_keepsErrIrq _) (appendPayload_keepsErrIrq _ _)

theorem seekSync_irqStatus (c : Cfg) (s : State) : (seekSync c s).irqStatus = s.irqStatus := by
  unfold seekSync
  split <;> rfl

/-- The decoder step raises FRAME_OK and DONE at most (45_decoder R252, R260). -/
theorem decoderStep_keepsErrIrq (c : Cfg) (s : State) : KeepsErrIrq s (decoderStep c s) := by
  unfold decoderStep
  split
  · exact .of_eq rfl
  · exact .of_eq (seekSync_irqStatus c _)
  · exact .of_eq (seekSync_irqStatus c s)
  · split
    · exact .of_eq rfl
    · simp only
      split
      · exact frameAttempt_keepsErrIrq c _
      · exact .of_eq rfl

theorem slotStep_keepsErrIrq (c : Cfg) (rp rl : Record) (s : State) : KeepsErrIrq s (slotStep c rp rl s) :=
  decoderStep_keepsErrIrq c (pushSlot rp rl s)

/-- An effect leaves the error record and the ERR interrupt alone: only an error report moves them. -/
theorem commandEffect_keeps (i : Instr) (s : State) :
    KeepsErrors s (commandEffect i s) ∧ KeepsErrIrq s (commandEffect i s) := by
  cases i with
  | analyze => exact ⟨(analyzeValues_keeps params _ s).1, slotStep_keepsErrIrq params.cfg _ _ _⟩
  | chunk => exact ⟨(chunkEffect_keeps params s).1, slotStep_keepsErrIrq params.cfg _ _ _⟩
  | candPush cnt lcnt => exact ⟨(candPushEffect_keeps params.cfg cnt lcnt s).1, slotStep_keepsErrIrq params.cfg _ _ s⟩
  | rsDec d k =>
    refine ⟨(rsDecEffect_keeps d k s).1, .of_eq ?_⟩
    change (rsDecEffect d k s).irqStatus = s.irqStatus
    unfold rsDecEffect
    split <;> rfl
  | _ => exact ⟨⟨rfl, rfl⟩, .of_eq rfl⟩

/-! ### The errors of a command -/

theorem exec_of_raisesError {i : Instr} {s : State} {c : ErrCode} (hw : i.wellFormed = true) (h : RaisesError i s c) :
    exec i s = .next (report c (if c = .cfgInvalid then { s with ready := false } else s)) := by
  rcases h with ⟨rfl, hneeds, hready⟩ | ⟨rfl, hpass, hbad⟩ | ⟨rfl, rfl, hinvalid⟩
  · have hi : i ≠ .init := by rintro rfl; cases hneeds
    rw [exec_eq_gated hi, gated_notReady hneeds hready]
    rfl
  · have hi : i ≠ .init := by rintro rfl; exact hbad
    rw [exec_eq_gated hi, gated_badArg hpass ((argBad_iff hw).2 hbad)]
    rfl
  · exact exec_init_invalid hinvalid

/-- A command to which the rules give no error answers its effect, and INIT its fresh session. -/
theorem exec_of_no_error {i : Instr} {s : State} (hw : i.wellFormed = true) (h : ∀ c, ¬RaisesError i s c) :
    ∃ t, exec i s = .next t ∧ KeepsErrors s t ∧ KeepsErrIrq s t := by
  by_cases hi : i = .init
  · subst hi
    obtain ⟨b, hb⟩ := exec_init_valid fun hinvalid => h .cfgInvalid (.inr (.inr ⟨rfl, rfl, hinvalid⟩))
    exact ⟨_, hb, ⟨rfl, rfl⟩, .of_eq rfl⟩
  · have hpass : ¬(needsReady i = true ∧ s.ready = false) := fun hnot => h .notReady (.inl ⟨rfl, hnot⟩)
    have hgood : argBad i = false :=
      Bool.eq_false_iff.2 fun hbad => h .badArg (.inr (.inl ⟨rfl, hpass, (argBad_iff hw).1 hbad⟩))
    refine ⟨commandEffect i s, ?_, commandEffect_keeps i s⟩
    rw [exec_eq_gated hi, gated_pass _ (by simpa using hpass) hgood]

/-- Settles O8: a command is a gate whose checks are the errors of R301 and R110, and INIT is its validation; past them
only the effect is left, which reports nothing. -/
theorem commandErrorsArePrecise : Obligations.CommandErrorsArePrecise :=
  fun _ _ hw => ⟨fun _ => exec_of_raisesError hw, exec_of_no_error hw⟩

end Sys2Proof.Proofs

/-! PROOFS. The control commands NOP, CLEAR and INIT (40_control R130 to R135): what clear_session leaves behind, that it
forgets the old session, and INIT as a latch before it. -/

namespace Sys2Proof.Proofs

open Sys2Proof.Machine

/-! ### clear_session (40_control R134) -/

theorem byteAt_clearSession_pay (p : Params) (s : State) {i : Nat} (hi : i < 256) :
    byteAt (clearSession p s) (payBase + i) = 0 := by
  rw [clearSession, byteAt_storeBytes, List.length_replicate, if_pos (by omega),
    List.getD_replicate 0 (by omega)]

theorem candWord_clearSession (p : Params) (s : State) : candWord (clearSession p s) = 0 := by
  change (0 : Half).append (0 : Half) = 0
  decide

theorem candCntWord_clearSession (p : Params) (s : State) : candCntWord (clearSession p s) = 0 := by
  change BitVec.ofNat 32 ((0 : BitVec 2).toNat + 4 * (0 : BitVec 2).toNat) = 0
  decide

theorem exec_clear_ready {s : State} (hr : s.ready = true) : exec .clear s = .next (clearSession params s) :=
  gated_pass _ (fun _ => hr) rfl

/-- Settles O12: CLEAR is the READY gate around clear_session, whose session is the fresh one. -/
theorem clearStartsAFreshSession : Obligations.ClearStartsAFreshSession := by
  refine fun s => ⟨fun hr => gated_notReady rfl hr, fun hr => ⟨clearSession params s, exec_clear_ready hr, ?_⟩⟩
  obtain ⟨-, -, -, -, -, hbytes⟩ := clearSession_frame params s
  exact ⟨rfl, rfl, rfl, rfl, rfl, rfl, rfl, rfl, rfl, rfl, rfl, rfl,
    candWord_clearSession params s, candCntWord_clearSession params s,
    fun i hi => byteAt_clearSession_pay params s hi, hbytes⟩

/-! ### Canonical memories are determined by their lookups (log 3) -/

/-- A canonical memory lists at most one byte for an offset, so its cells are its lookups. -/
theorem mem_iff_lookup {m : Memory} (h : m.wf = true) (c : Host.Cell) : c ∈ m ↔ m.lookup c.1 = some c.2 := by
  rw [wf_iff_pairwise] at h
  obtain ⟨a, b⟩ := c
  induction m with
  | nil => simp [Memory.lookup]
  | cons d m ih =>
    obtain ⟨k, v⟩ := d
    obtain ⟨hlt, hm⟩ := List.pairwise_cons.1 h
    by_cases hk : k = a
    · subst hk
      have habsent : (k, b) ∉ m := fun hmem => lt_irrefl k (hlt (k, b) hmem)
      simp [Memory.lookup, habsent, eq_comm]
    · simp [Memory.lookup, hk, Ne.symm hk, ih hm]

theorem memory_ext {m n : Memory} (hm : m.wf = true) (hn : n.wf = true) (h : ∀ a, m.lookup a = n.lookup a) : m = n := by
  have hcells : ∀ c, c ∈ m ↔ c ∈ n := fun c => by rw [mem_iff_lookup hm, mem_iff_lookup hn, h]
  have : Std.Irrefl fun c d : Host.Cell => c.1 < d.1 := ⟨fun c => lt_irrefl c.1⟩
  have : Std.Antisymm fun c d : Host.Cell => c.1 < d.1 := ⟨fun _ _ h k => absurd h (lt_asymm k)⟩
  exact List.Pairwise.eq_of_mem_iff ((wf_iff_pairwise m).1 hm) ((wf_iff_pairwise n).1 hn) fun {c} => hcells c

/-- Canonical memories that agree outside a range are the same memory once that range is overwritten. -/
theorem writeBytes_eq_of_agree_outside {m n : Memory} {base : Nat} {bs : List Byte} (hm : m.wf = true)
    (hn : n.wf = true) (h : ∀ a, a < base ∨ base + bs.length ≤ a → m.lookup a = n.lookup a) :
    m.writeBytes base bs = n.writeBytes base bs := by
  refine memory_ext (writeBytes_wf m base bs hm) (writeBytes_wf n base bs hn) fun a => ?_
  rw [lookup_writeBytes, lookup_writeBytes]
  split
  · rfl
  · exact h a (by omega)

/-- clear_session reads neither the old session nor the PAY bytes. -/
theorem clearSession_forgets (p : Params) {s : State} (x : Session) {m : Memory} (hs : s.mem.wf = true)
    (hm : m.wf = true) (h : ∀ a, a < payBase ∨ payBase + 256 ≤ a → m.lookup a = s.mem.lookup a) :
    clearSession p { s with session := x, mem := m } = clearSession p s := by
  have hmem : m.writeBytes payBase (List.replicate 256 0) = s.mem.writeBytes payBase (List.replicate 256 0) :=
    writeBytes_eq_of_agree_outside hm hs (by rwa [List.length_replicate])
  simp only [clearSession, storeBytes, hmem]

/-- Settles O14: both states pass the READY gate, and clear_session overwrites all in which they differ. -/
theorem clearLeaksNothingOfTheSession : Obligations.ClearLeaksNothingOfTheSession := by
  intro s x m hr hs hm h
  rw [exec_clear_ready hr, exec_clear_ready (s := { s with session := x, mem := m }) hr,
    clearSession_forgets params x hs hm h]

/-! ### INIT (40_control R131 to R133) -/

theorem exists_band_of_valid {t : Settings} (h : ¬SettingsInvalid t) :
    ∃ b, bandOfBits t.band = some b ∧ settingsOk b t = true := by
  simpa only [settingsInvalid_iff, not_forall, not_not, exists_prop] using h

theorem exec_init_of_band {s : State} {b : Band} (hb : bandOfBits s.settings.band = some b)
    (hok : settingsOk b s.settings = true) : exec .init s = .next (initSession params b s) := by
  change initWith params s = _
  simp only [initWith, hb, hok, if_true]

theorem coefficients_getD (p : Params) (l : Latched) {n : Nat} (hn : n < 32) :
    (coefficients p l).getD n 0
      = coefValue p.num (bandCfg p.cfg l.band).ftype (bandCfg p.cfg l.band).fc l.fs.toNat n := by
  simp [coefficients, firTaps, List.getD, hn]

/-- Settles O11: INIT latches the settings, computes H from the latch, and ends with clear_session. -/
theorem initLatchesAndStartsAFreshSession : Obligations.InitLatchesAndStartsAFreshSession := by
  intro s hvalid
  obtain ⟨b, hb, hok⟩ := exists_band_of_valid hvalid
  obtain ⟨hhost, herrors, hresult, -, hirq, hbytes⟩ :=
    clearSession_frame params { s with latched := latch b s.settings, h := coefficients params (latch b s.settings) }
  exact ⟨initSession params b s, exec_init_of_band hb hok, rfl, hb, rfl, rfl, rfl, rfl, rfl, rfl, rfl, rfl, rfl,
    coefficients_length params _, fun n hn => coefficients_getD params _ hn, rfl,
    fun i hi => byteAt_clearSession_pay params _ hi, hbytes, { hhost with }, { herrors with }, { hresult with }, hirq⟩

/-- On a ready state that holds what INIT would latch and compute, INIT is clear_session. -/
theorem initSession_eq_clearSession {p : Params} {b : Band} {u : State} (hl : u.latched = latch b u.settings)
    (hh : u.h = coefficients p u.latched) (hr : u.ready = true) : initSession p b u = clearSession p u := by
  simp only [initSession, clearSession, storeBytes, ← hl, ← hh, hr]

/-- Settles O13: an INIT that left READY = 1 latched the settings; where they and its latch and H still stand, both
commands are clear_session. -/
theorem repeatedInitIsClear : Obligations.RepeatedInitIsClear := by
  intro s t u hinit hready hset hlatched hh hr
  by_cases hvalid : SettingsInvalid s.settings
  · rw [exec_init_invalid hvalid] at hinit
    cases hinit
    cases hready
  · obtain ⟨b, hb, hok⟩ := exists_band_of_valid hvalid
    rw [exec_init_of_band hb hok] at hinit
    cases hinit
    rw [← hset] at hb hok
    have hl : u.latched = latch b u.settings := by rw [hlatched, hset]; rfl
    have hc : u.h = coefficients params u.latched := by rw [hh, hlatched]; rfl
    rw [exec_init_of_band hb hok, exec_clear_ready hr, initSession_eq_clearSession hl hc hr]

/-! ### NOP and the core's turn (40_control R130, 60_exceptions R303) -/

/-- The core's turn, taken from the schedule if it stands there (log 1). -/
theorem step_of_coreIsNext {s : State} (h : CoreIsNext s) :
    step s = coreTurn { s with events := s.events.tail } := by
  rcases h with he | ⟨rest, he⟩
  · have hs : { s with events := s.events.tail } = s := by rw [he, List.tail_nil, ← he]
    rw [hs, step, advance, he]
  · simp only [step, advance, he, runEvent, List.tail_cons]

theorem coreTurn_command {s : State} {i : Instr} (hb : s.busy = true) (hd : decode s.pend = .ok i) :
    coreTurn s = finishCommand (exec i s) := by
  simp only [coreTurn, hb, if_true, coreStep, runCommand, hd]

/-- Settles O10: the word 0 is NOP, whose core step is the common completion alone. -/
theorem nopChangesNothing : Obligations.NopChangesNothing := by
  refine fun s => ⟨exec_nop s, fun hb hcore hpend => ?_⟩
  have hdecode : decode s.pend = .ok .nop := by rw [hpend]; exact writtenOutWordsDecode.1
  rw [step_of_coreIsNext hcore, coreTurn_command (s := { s with events := s.events.tail }) hb hdecode, exec_nop]
  rfl

end Sys2Proof.Proofs

/-! PROOFS. The field of bytes (41_reed_solomon R150 to R153): ALPHA_TO and INDEX_OF are inverse to each other, so ⊗ adds
exponents modulo 255, and multiplication by α^i is i turns of the linear shift by α. -/

namespace Sys2Proof.Proofs

open Sys2Proof.Machine

/-! ### The tables (R151) -/

theorem indexOf_lt : ∀ a : Byte, a ≠ 0 → indexOf a < 255 := by decide +kernel

theorem alphaTo_indexOf : ∀ a : Byte, a ≠ 0 → alphaTo (indexOf a) = a := by decide +kernel

theorem indexOf_alphaTo : ∀ i < 255, indexOf (alphaTo i) = i := by decide +kernel

theorem alphaTo_ne_zero : ∀ i < 255, alphaTo i ≠ 0 := by decide +kernel

theorem gfMul_two : ∀ a : Byte, gfMul 0x02 a = (a <<< 1) ^^^ (if a.getLsbD 7 then 0x1D else 0) := by decide +kernel

/-! ### Powers of α (R152) -/

theorem alphaPow_ne_zero (i : Nat) : alphaPow i ≠ 0 := alphaTo_ne_zero _ (Nat.mod_lt i (by norm_num))

theorem indexOf_alphaPow (i : Nat) : indexOf (alphaPow i) = i % 255 := indexOf_alphaTo _ (Nat.mod_lt i (by norm_num))

theorem alphaPow_indexOf {a : Byte} (ha : a ≠ 0) : alphaPow (indexOf a) = a := by
  rw [alphaPow, Nat.mod_eq_of_lt (indexOf_lt a ha), alphaTo_indexOf a ha]

theorem alphaPow_inj {i j : Nat} : alphaPow i = alphaPow j ↔ i % 255 = j % 255 :=
  ⟨fun h => by rw [← indexOf_alphaPow, h, indexOf_alphaPow], fun h => by rw [alphaPow, h, alphaPow]⟩

theorem alphaPow_one : alphaPow 1 = 0x02 := by decide +kernel

theorem alphaPow_zero : alphaPow 0 = 1 := by decide +kernel

theorem alphaPow_255 : alphaPow 255 = 1 := by decide +kernel

theorem gfMul_alphaPow (i j : Nat) : gfMul (alphaPow i) (alphaPow j) = alphaPow (i + j) := by
  rw [gfMul, if_neg (not_or.2 ⟨alphaPow_ne_zero i, alphaPow_ne_zero j⟩), indexOf_alphaPow, indexOf_alphaPow,
    ← Nat.add_mod, alphaPow]

/-- Every byte is 0 or a power of α, so a law of ⊗ holds for all bytes if it holds for 0 and for the powers. -/
theorem byte_cases (a : Byte) : a = 0 ∨ ∃ i, a = alphaPow i :=
  or_iff_not_imp_left.2 fun ha => ⟨indexOf a, (alphaPow_indexOf ha).symm⟩

/-! ### The laws of ⊗ (R153) -/

theorem gfMul_zero (a : Byte) : gfMul a 0 = 0 := if_pos (.inr rfl)

theorem zero_gfMul (a : Byte) : gfMul 0 a = 0 := if_pos (.inl rfl)

theorem gfMul_comm (a b : Byte) : gfMul a b = gfMul b a := by
  simp only [gfMul, Nat.add_comm (indexOf a), or_comm (a := a = 0)]

theorem gfMul_assoc (a b c : Byte) : gfMul (gfMul a b) c = gfMul a (gfMul b c) := by
  rcases byte_cases a with rfl | ⟨i, rfl⟩
  · simp only [zero_gfMul]
  rcases byte_cases b with rfl | ⟨j, rfl⟩
  · simp only [zero_gfMul, gfMul_zero]
  rcases byte_cases c with rfl | ⟨l, rfl⟩
  · simp only [gfMul_zero]
  simp only [gfMul_alphaPow, Nat.add_assoc]

theorem one_gfMul (a : Byte) : gfMul 1 a = a := by
  rcases byte_cases a with rfl | ⟨i, rfl⟩
  · exact gfMul_zero 1
  · rw [← alphaPow_zero, gfMul_alphaPow, Nat.zero_add]

/-- The shift by α is linear. -/
theorem gfMul_two_xor (b c : Byte) : gfMul 0x02 (b ^^^ c) = gfMul 0x02 b ^^^ gfMul 0x02 c := by
  simp only [gfMul_two, BitVec.shiftLeft_xor_distrib, BitVec.getLsbD_xor]
  have hreduce : ∀ p q : Bool, (if p ^^ q then 0x1D else (0 : Byte))
      = (if p then 0x1D else 0) ^^^ (if q then 0x1D else 0) := by decide
  rw [hreduce]
  ac_rfl

theorem gfMul_xor (a b c : Byte) : gfMul a (b ^^^ c) = gfMul a b ^^^ gfMul a c := by
  rcases byte_cases a with rfl | ⟨i, rfl⟩
  · simp only [zero_gfMul, BitVec.xor_self]; rfl
  induction i with
  | zero => simp only [alphaPow_zero, one_gfMul]
  | succ i ih =>
    have hstep : ∀ x, gfMul (alphaPow (i + 1)) x = gfMul 0x02 (gfMul (alphaPow i) x) := fun x => by
      rw [← gfMul_assoc, ← alphaPow_one, gfMul_alphaPow, Nat.add_comm]
    simp only [hstep, ih, gfMul_two_xor]

theorem gfDiv_eq (a : Byte) {b : Byte} (hb : b ≠ 0) : gfDiv a b = gfMul a (alphaPow (255 - indexOf b)) := by
  by_cases ha : a = 0
  · rw [gfDiv, if_pos ha, ha, zero_gfMul]
  · have hlt := indexOf_lt b hb
    rw [gfDiv, if_neg ha, Nat.add_sub_assoc hlt.le]
    conv_rhs => rw [← alphaPow_indexOf ha, gfMul_alphaPow, alphaPow]

theorem gfInv_eq {b : Byte} (hb : b ≠ 0) : gfInv b = alphaPow (255 - indexOf b) := by
  rw [gfInv, gfDiv_eq 1 hb, one_gfMul]

theorem gfMul_gfInv {a : Byte} (ha : a ≠ 0) : gfMul a (gfInv a) = 1 := by
  have hlt := indexOf_lt a ha
  rw [gfInv_eq ha]
  conv_lhs => rw [← alphaPow_indexOf ha]
  rw [indexOf_alphaPow, Nat.mod_eq_of_lt hlt, gfMul_alphaPow, Nat.add_sub_of_le hlt.le, alphaPow_255]

/-- The inverse is the only one, as in every commutative monoid. -/
theorem eq_gfInv_of_gfMul_eq_one {a b : Byte} (ha : a ≠ 0) (h : gfMul a b = 1) : b = gfInv a := by
  calc b = gfMul (gfMul a (gfInv a)) b := by rw [gfMul_gfInv ha, one_gfMul]
    _ = gfMul (gfInv a) (gfMul a b) := by rw [gfMul_comm a, gfMul_assoc]
    _ = gfInv a := by rw [h, gfMul_comm, one_gfMul]

/-- Settles O36: the laws of ⊗ are those of addition of exponents, and the shift by α is linear. -/
theorem fieldLaws : Obligations.FieldLaws := by
  refine ⟨gfMul_two, gfMul_comm, gfMul_assoc, gfMul_xor, one_gfMul,
    fun a ha => ⟨gfMul_gfInv ha, fun b => eq_gfInv_of_gfMul_eq_one ha⟩,
    fun b => ?_, fun a b hb => by rw [gfDiv_eq a hb, gfInv_eq hb]⟩
  rw [zero_gfMul]; decide

/-! ### The bytes as a field in Mathlib's sense -/

/-- A map of the bytes into a field that takes ⊕ to +, ⊗ to multiplication and different bytes to different elements. -/
structure IsByteField {F : Type} [Field F] (φ : Byte → F) : Prop where
  injective : Function.Injective φ
  map_xor : ∀ a b, φ (a ^^^ b) = φ a + φ b
  map_gfMul : ∀ a b, φ (gfMul a b) = φ a * φ b

/-- The bytes with ⊕ as + and ⊗ as multiplication: a type of its own, as the bytes carry another ring in Mathlib. -/
structure GF where
  byte : Byte

/-- The field that R150 names. -/
@[reducible] def gfField : Field GF :=
  @Field.ofMinimalAxioms GF ⟨fun a b => ⟨a.byte ^^^ b.byte⟩⟩ ⟨fun a b => ⟨gfMul a.byte b.byte⟩⟩ ⟨id⟩
    ⟨fun a => if a.byte = 0 then ⟨0⟩ else ⟨gfInv a.byte⟩⟩ ⟨⟨0⟩⟩ ⟨⟨1⟩⟩
    (fun a b c => congrArg GF.mk (BitVec.xor_assoc a.byte b.byte c.byte))
    (fun _ => congrArg GF.mk BitVec.zero_xor)
    (fun _ => congrArg GF.mk BitVec.xor_self)
    (fun a b c => congrArg GF.mk (gfMul_assoc a.byte b.byte c.byte))
    (fun a b => congrArg GF.mk (gfMul_comm a.byte b.byte))
    (fun a => congrArg GF.mk (one_gfMul a.byte))
    (fun a ha => by
      have hbyte : a.byte ≠ 0 := fun h => ha (congrArg GF.mk h)
      change GF.mk (gfMul a.byte (if a.byte = 0 then GF.mk 0 else ⟨gfInv a.byte⟩).byte) = ⟨1⟩
      rw [if_neg hbyte, gfMul_gfInv hbyte])
    rfl
    (fun a b c => congrArg GF.mk (gfMul_xor a.byte b.byte c.byte))
    ⟨⟨0⟩, ⟨1⟩, fun h => absurd (congrArg GF.byte h) (by decide)⟩

theorem exists_byteField : ∃ (F : Type) (_ : Field F) (φ : Byte → F), IsByteField φ :=
  letI := gfField
  ⟨GF, gfField, GF.mk, fun _ _ => congrArg GF.byte, fun _ _ => rfl, fun _ _ => rfl⟩

/-- The location X_q = α^q of the coefficient of degree q (41_reed_solomon R161 step 4). -/
def place {F : Type} (φ : Byte → F) (q : Nat) : F := φ (alphaPow q)

namespace IsByteField

variable {F : Type} [Field F] {φ : Byte → F} (h : IsByteField φ)
include h

theorem map_zero : φ 0 = 0 := by
  simpa using h.map_xor 0 0

theorem map_eq_zero {a : Byte} : φ a = 0 ↔ a = 0 := by
  rw [← h.map_zero, h.injective.eq_iff]

theorem map_one : φ 1 = 1 := by
  have hne : φ 1 ≠ 0 := fun h1 => absurd (h.map_eq_zero.1 h1) (by decide)
  have hsq : φ 1 * φ 1 = φ 1 := by rw [← h.map_gfMul, one_gfMul]
  exact mul_left_cancel₀ hne (by rw [hsq, mul_one])

/-- ⊕ of a byte with itself is 0. -/
theorem charTwo : CharP F 2 :=
  CharTwo.of_one_ne_zero_of_two_eq_zero one_ne_zero (by
    rw [← one_add_one_eq_two, ← h.map_one, ← h.map_xor, BitVec.xor_self]; exact h.map_zero)

theorem map_alphaPow_add (i j : Nat) : φ (alphaPow (i + j)) = φ (alphaPow i) * φ (alphaPow j) := by
  rw [← h.map_gfMul, gfMul_alphaPow]

theorem place_ne_zero (q : Nat) : place φ q ≠ 0 := mt h.map_eq_zero.1 (alphaPow_ne_zero q)

theorem map_alphaPow_pow (i j : Nat) : φ (alphaPow i) ^ j = φ (alphaPow (i * j)) := by
  induction j with
  | zero => rw [pow_zero, Nat.mul_zero, alphaPow_zero, h.map_one]
  | succ j ih => rw [pow_succ, ih, ← h.map_alphaPow_add, Nat.mul_succ]

theorem map_alphaInvPow (q : Nat) : φ (alphaInvPow q) = (place φ q)⁻¹ := by
  refine eq_inv_of_mul_eq_one_left ?_
  have hsum : alphaPow (255 - q % 255 + q) = alphaPow 0 := alphaPow_inj.2 (by omega)
  change φ (alphaPow (255 - q % 255)) * φ (alphaPow q) = 1
  rw [← h.map_alphaPow_add, hsum, alphaPow_zero, h.map_one]

/-- The powers of α below 255 are different. -/
theorem place_injOn {T : Finset Nat} (hT : ∀ q ∈ T, q < 255) : Set.InjOn (place φ) T := by
  intro i hi j hj hij
  have hmod := alphaPow_inj.1 (h.injective hij)
  rwa [Nat.mod_eq_of_lt (hT i hi), Nat.mod_eq_of_lt (hT j hj)] at hmod

theorem map_gfDiv (a : Byte) {b : Byte} (hb : b ≠ 0) : φ (gfDiv a b) = φ a / φ b := by
  have hinv : φ (gfInv b) = (φ b)⁻¹ := eq_inv_of_mul_eq_one_right (by rw [← h.map_gfMul, gfMul_gfInv hb, h.map_one])
  rw [gfDiv_eq a hb, ← gfInv_eq hb, h.map_gfMul, hinv, div_eq_mul_inv]

end IsByteField

end Sys2Proof.Proofs

/-! PROOFS. The algebra behind R161, over any field: the locator Λ and the evaluator Ω of an error pattern, the key equation
Λ·S = Ω mod x^K, its unique solution, and Massey's bound on the lengths of shift registers that generate a sequence. -/

namespace Sys2Proof.Proofs

open Polynomial

section KeyEquation

variable {F : Type} [Field F]

/-- Λ(x) = Π (1 − X_i x), whose roots are the inverses of the error places. -/
noncomputable def locator (T : Finset ℕ) (x : ℕ → F) : F[X] := ∏ i ∈ T, (1 - C (x i) * X)

/-- Ω(x) = Σ e_i X_i Π_{l ≠ i} (1 − X_l x). -/
noncomputable def evaluator (T : Finset ℕ) (e x : ℕ → F) : F[X] :=
  ∑ i ∈ T, C (e i * x i) * locator (T.erase i) x

/-- S(x) = S_1 + S_2 x + … + S_K x^(K−1) with S_j = Σ e_i X_i^j (41_reed_solomon R157, R161). -/
noncomputable def syndromePoly (T : Finset ℕ) (e x : ℕ → F) (k : ℕ) : F[X] :=
  ∑ j ∈ Finset.range k, C (∑ i ∈ T, e i * x i ^ (j + 1)) * X ^ j

theorem syndromePoly_coeff (T : Finset ℕ) (e x : ℕ → F) (k j : ℕ) :
    (syndromePoly T e x k).coeff j = if j < k then ∑ i ∈ T, e i * x i ^ (j + 1) else 0 := by
  simp only [syndromePoly, finsetSum_coeff, coeff_C_mul_X_pow, Finset.sum_ite_eq, Finset.mem_range]

theorem locator_natDegree_le (T : Finset ℕ) (x : ℕ → F) : (locator T x).natDegree ≤ T.card := by
  have hfactor : ∀ i ∈ T, (1 - C (x i) * X).natDegree ≤ 1 := fun i _ => by compute_degree
  exact (natDegree_prod_le T fun i => 1 - C (x i) * X).trans (by simpa using Finset.sum_le_sum hfactor)

theorem locator_coeff_zero (T : Finset ℕ) (x : ℕ → F) : (locator T x).coeff 0 = 1 := by
  simp [coeff_zero_eq_eval_zero, locator, eval_prod]

theorem locator_eq_mul_erase {T : Finset ℕ} (x : ℕ → F) {i : ℕ} (hi : i ∈ T) :
    locator T x = (1 - C (x i) * X) * locator (T.erase i) x :=
  (Finset.mul_prod_erase T _ hi).symm

theorem locator_eval_eq_zero_iff {T : Finset ℕ} {x : ℕ → F} {y : F} :
    (locator T x).eval y = 0 ↔ ∃ i ∈ T, x i * y = 1 := by
  simp [locator, eval_prod, Finset.prod_eq_zero_iff, sub_eq_zero, eq_comm (a := (1 : F))]

theorem evaluator_coeff_eq_zero {T : Finset ℕ} (e x : ℕ → F) {j : ℕ} (hj : T.card ≤ j) :
    (evaluator T e x).coeff j = 0 := by
  rw [evaluator, finsetSum_coeff]
  refine Finset.sum_eq_zero fun i hi => ?_
  have hdeg := locator_natDegree_le (T.erase i) x
  have hcard := Finset.card_erase_lt_of_mem hi
  rw [coeff_C_mul, coeff_eq_zero_of_natDegree_lt (by omega), mul_zero]

/-- The key equation: each error contributes e X / (1 − X x), cut off at x^K. -/
theorem locator_mul_syndromePoly (T : Finset ℕ) (e x : ℕ → F) (k : ℕ) :
    locator T x * syndromePoly T e x k = evaluator T e x - X ^ k * evaluator T (fun i => e i * x i ^ k) x := by
  have hsyn : syndromePoly T e x k = ∑ i ∈ T, C (e i * x i) * ∑ j ∈ Finset.range k, (C (x i) * X) ^ j := by
    simp only [syndromePoly, map_sum, Finset.sum_mul, Finset.mul_sum]
    rw [Finset.sum_comm]
    refine Finset.sum_congr rfl fun i _ => Finset.sum_congr rfl fun j _ => ?_
    simp only [map_mul, map_pow]; ring
  rw [hsyn, evaluator, evaluator, Finset.mul_sum, Finset.mul_sum, ← Finset.sum_sub_distrib]
  refine Finset.sum_congr rfl fun i hi => ?_
  calc locator T x * (C (e i * x i) * ∑ j ∈ Finset.range k, (C (x i) * X) ^ j)
      = C (e i * x i) * locator (T.erase i) x * ((1 - C (x i) * X) * ∑ j ∈ Finset.range k, (C (x i) * X) ^ j) := by
        rw [locator_eq_mul_erase x hi]; ring
    _ = _ := by
        rw [mul_neg_geom_sum]; simp only [map_mul, map_pow]; ring

theorem locator_mul_syndromePoly_coeff (T : Finset ℕ) (e x : ℕ → F) {k j : ℕ} (hj : j < k) :
    (locator T x * syndromePoly T e x k).coeff j = (evaluator T e x).coeff j := by
  rw [locator_mul_syndromePoly, coeff_sub, coeff_X_pow_mul', if_neg (by omega), sub_zero]

/-! ### Values at the inverse of an error place -/

section Inverse

variable {T : Finset ℕ} {x : ℕ → F} {i : ℕ}

theorem evaluator_eval_inv (e : ℕ → F) (hi : i ∈ T) (hx : x i ≠ 0) :
    (evaluator T e x).eval (x i)⁻¹ = e i * x i * (locator (T.erase i) x).eval (x i)⁻¹ := by
  rw [evaluator, eval_finsetSum, Finset.sum_eq_single i]
  · rw [eval_mul, eval_C]
  · intro l _ hl
    have hroot : (locator (T.erase l) x).eval (x i)⁻¹ = 0 :=
      locator_eval_eq_zero_iff.2 ⟨i, Finset.mem_erase.2 ⟨hl.symm, hi⟩, mul_inv_cancel₀ hx⟩
    rw [eval_mul, hroot, mul_zero]
  · exact fun h => absurd hi h

theorem derivative_locator_eval_inv (hi : i ∈ T) (hx : x i ≠ 0) :
    (derivative (locator T x)).eval (x i)⁻¹ = -(x i * (locator (T.erase i) x).eval (x i)⁻¹) := by
  rw [locator_eq_mul_erase x hi, derivative_mul]
  simp [mul_inv_cancel₀ hx]

theorem locator_erase_eval_inv_ne_zero (hinj : Set.InjOn x T) (hi : i ∈ T) (hx : x i ≠ 0) :
    (locator (T.erase i) x).eval (x i)⁻¹ ≠ 0 := by
  rw [Ne, locator_eval_eq_zero_iff]
  rintro ⟨l, hl, hmul⟩
  obtain ⟨hne, hlT⟩ := Finset.mem_erase.1 hl
  exact hne (hinj hlT hi (by rwa [mul_inv_eq_one₀ hx] at hmul))

/-- Forney's formula: Ω and Λ' have the ratio −e_i at the inverse of the place X_i. -/
theorem evaluator_div_derivative (e : ℕ → F) (hinj : Set.InjOn x T) (hi : i ∈ T) (hx : x i ≠ 0) :
    (evaluator T e x).eval (x i)⁻¹ / (derivative (locator T x)).eval (x i)⁻¹ = -e i := by
  have hne := mul_ne_zero hx (locator_erase_eval_inv_ne_zero hinj hi hx)
  rw [evaluator_eval_inv e hi hx, derivative_locator_eval_inv hi hx, mul_assoc, div_neg, mul_div_cancel_right₀ _ hne]

end Inverse

/-- No error pattern of at most K places has K zero syndromes. -/
theorem eq_zero_of_syndromePoly_eq_zero {T : Finset ℕ} {e x : ℕ → F} {k : ℕ} (hinj : Set.InjOn x T)
    (hx : ∀ i ∈ T, x i ≠ 0) (hk : T.card ≤ k) (hsyn : syndromePoly T e x k = 0) {i : ℕ} (hi : i ∈ T) : e i = 0 := by
  have heval : evaluator T e x = 0 := by
    ext j
    rw [coeff_zero]
    rcases lt_or_ge j k with hj | hj
    · rw [← locator_mul_syndromePoly_coeff T e x hj, hsyn, mul_zero, coeff_zero]
    · exact evaluator_coeff_eq_zero e x (by omega)
  have hval := evaluator_eval_inv e hi (hx i hi)
  rw [heval, eval_zero] at hval
  simpa [hx i hi, locator_erase_eval_inv_ne_zero hinj hi (hx i hi)] using hval.symm

/-! ### Shift registers that generate a sequence -/

/-- p is the connection polynomial of a linear feedback shift register of length L that generates the coefficients of S
below n. -/
structure Generates (S p : F[X]) (L n : ℕ) : Prop where
  coeff_zero : p.coeff 0 = 1
  natDegree_le : p.natDegree ≤ L
  coeff_mul : ∀ j, L ≤ j → j < n → (p * S).coeff j = 0

theorem locator_generates (T : Finset ℕ) (e x : ℕ → F) (k : ℕ) :
    Generates (syndromePoly T e x k) (locator T x) T.card k where
  coeff_zero := locator_coeff_zero T x
  natDegree_le := locator_natDegree_le T x
  coeff_mul := fun j hcard hj => by
    rw [locator_mul_syndromePoly_coeff T e x hj, evaluator_coeff_eq_zero e x hcard]

theorem Generates.mono {S p : F[X]} {L m n : ℕ} (h : Generates S p L n) (hm : m ≤ n) : Generates S p L m :=
  ⟨h.coeff_zero, h.natDegree_le, fun j hL hj => h.coeff_mul j hL (by omega)⟩

/-- A coefficient of p·f where the coefficients of f in reach of p all vanish but the last. -/
theorem coeff_mul_eq_of_coeff_eq_zero {p f : F[X]} {L n : ℕ} (hp : p.natDegree ≤ L)
    (hf : ∀ j, n ≤ j + L → j < n → f.coeff j = 0) : (p * f).coeff n = p.coeff 0 * f.coeff n := by
  rw [coeff_mul, Finset.sum_eq_single (0, n)]
  · rintro ⟨i, j⟩ hij hne
    have hsum : i + j = n := Finset.HasAntidiagonal.mem_antidiagonal.1 hij
    have hi0 : i ≠ 0 := by
      rintro rfl
      exact hne (by rw [← hsum, Nat.zero_add])
    by_cases hi : i ≤ L
    · rw [hf j (by omega) (by omega), mul_zero]
    · rw [coeff_eq_zero_of_natDegree_lt (by omega), zero_mul]
  · exact fun h => absurd (Finset.HasAntidiagonal.mem_antidiagonal.2 (Nat.zero_add n)) h

/-- Massey's bound: where a register of length L fails to generate S_n, one that does has length n + 1 − L or more. -/
theorem Generates.le_add_of_coeff_ne_zero {S p q : F[X]} {L M n : ℕ} (hp : Generates S p L n)
    (hq : Generates S q M (n + 1)) (hne : (p * S).coeff n ≠ 0) : n + 1 ≤ L + M := by
  by_contra hlt
  have hleft : (q * (p * S)).coeff n = (p * S).coeff n := by
    rw [coeff_mul_eq_of_coeff_eq_zero hq.natDegree_le fun j hj => hp.coeff_mul j (by omega), hq.coeff_zero, one_mul]
  have hright : (p * (q * S)).coeff n = 0 := by
    rw [coeff_mul_eq_of_coeff_eq_zero hp.natDegree_le fun j hj hjn => hq.coeff_mul j (by omega) (by omega),
      hq.coeff_mul n (by omega) (by omega), mul_zero]
  exact hne (by rw [← hleft, mul_left_comm, hright])

theorem coeff_mul_eq_zero {p f : F[X]} {L M j : ℕ} (hp : p.natDegree ≤ L) (hf : ∀ i, M ≤ i → f.coeff i = 0)
    (hj : L + M ≤ j) : (p * f).coeff j = 0 := by
  refine (coeff_mul p f j).trans (Finset.sum_eq_zero ?_)
  rintro ⟨a, b⟩ hab
  have hsum : a + b = j := Finset.HasAntidiagonal.mem_antidiagonal.1 hab
  by_cases ha : a ≤ L
  · rw [hf b (by omega), mul_zero]
  · rw [coeff_eq_zero_of_natDegree_lt (by omega), zero_mul]

/-- A polynomial with a gap in its coefficients is its part below the gap, up to the power where the gap ends. -/
theorem exists_low_part {f : F[X]} {L k : ℕ} (hf : ∀ j, L ≤ j → j < k → f.coeff j = 0) :
    ∃ w : F[X], (∀ j, L ≤ j → w.coeff j = 0) ∧ X ^ k ∣ f - w := by
  obtain ⟨w, hcoeff⟩ : ∃ w : F[X], ∀ j, w.coeff j = if j < L then f.coeff j else 0 :=
    ⟨∑ i ∈ Finset.range L, C (f.coeff i) * X ^ i, by simp [coeff_X_pow]⟩
  refine ⟨w, fun j hj => by rw [hcoeff, if_neg (by omega)], ?_⟩
  refine X_pow_dvd_iff.2 fun j hj => ?_
  rw [coeff_sub, hcoeff]
  split
  · exact sub_self _
  · rw [hf j (by omega) hj, sub_zero]

section Unique

variable {T : Finset ℕ} {e x : ℕ → F} {p : F[X]} {L k : ℕ}

/-- Both sides have degree below 2|T|, so they agree as they agree modulo x^K. -/
theorem Generates.exists_mul_evaluator_eq (hp : Generates (syndromePoly T e x k) p L k) (hL : L ≤ T.card)
    (hk : 2 * T.card ≤ k) : ∃ w : F[X], p * evaluator T e x = locator T x * w := by
  obtain ⟨w, hw, hdvd⟩ := exists_low_part hp.coeff_mul
  refine ⟨w, sub_eq_zero.1 ?_⟩
  have hkey : X ^ k ∣ evaluator T e x - locator T x * syndromePoly T e x k :=
    ⟨evaluator T (fun i => e i * x i ^ k) x, by rw [locator_mul_syndromePoly]; ring⟩
  have hdiff : X ^ k ∣ p * evaluator T e x - locator T x * w := by
    have := dvd_add (hkey.mul_left p) (hdvd.mul_left (locator T x))
    convert this using 1; ring
  ext j
  rcases lt_or_ge j k with hj | hj
  · rw [X_pow_dvd_iff.1 hdiff j hj, Polynomial.coeff_zero]
  · rw [coeff_sub, coeff_mul_eq_zero (hp.natDegree_le.trans hL) (fun i => evaluator_coeff_eq_zero e x) (by omega),
      coeff_mul_eq_zero (locator_natDegree_le T x) (fun i hi => hw i (hL.trans hi)) (by omega), sub_zero,
      Polynomial.coeff_zero]

/-- A polynomial of degree at most |T| with value 1 at 0 and the locator's roots is the locator. -/
theorem eq_locator_of_roots (hinj : Set.InjOn x T) (hx : ∀ i ∈ T, x i ≠ 0) (h0 : p.coeff 0 = 1)
    (hdeg : p.natDegree ≤ T.card) (hroot : ∀ i ∈ T, p.eval (x i)⁻¹ = 0) : p = locator T x := by
  classical
  have hzero : (0 : F) ∉ T.image fun i => (x i)⁻¹ := by
    simpa using hx
  have hcard : (insert 0 (T.image fun i => (x i)⁻¹)).card = T.card + 1 := by
    rw [Finset.card_insert_of_notMem hzero,
      Finset.card_image_of_injOn fun i hi j hj hij => hinj hi hj (inv_injective hij)]
  refine eq_of_degree_sub_lt_of_eval_finset_eq (insert 0 (T.image fun i => (x i)⁻¹)) ?_ ?_
  · have hsub := natDegree_sub_le p (locator T x)
    have hloc := locator_natDegree_le T x
    rw [hcard]
    exact degree_le_natDegree.trans_lt (by exact_mod_cast (by omega))
  · intro y hy
    rcases Finset.mem_insert.1 hy with rfl | hy
    · rw [← coeff_zero_eq_eval_zero, ← coeff_zero_eq_eval_zero, h0, locator_coeff_zero]
    · obtain ⟨i, hi, rfl⟩ := Finset.mem_image.1 hy
      rw [hroot i hi, locator_eval_eq_zero_iff.2 ⟨i, hi, mul_inv_cancel₀ (hx i hi)⟩]

/-- The key equation has one solution: the locator, when there are at most K div 2 errors. -/
theorem Generates.eq_locator (hp : Generates (syndromePoly T e x k) p L k) (hL : L ≤ T.card) (hk : 2 * T.card ≤ k)
    (hinj : Set.InjOn x T) (hx : ∀ i ∈ T, x i ≠ 0) (he : ∀ i ∈ T, e i ≠ 0) : p = locator T x := by
  obtain ⟨w, hw⟩ := hp.exists_mul_evaluator_eq hL hk
  refine eq_locator_of_roots hinj hx hp.coeff_zero (hp.natDegree_le.trans hL) fun i hi => ?_
  have hroot : (locator T x).eval (x i)⁻¹ = 0 := locator_eval_eq_zero_iff.2 ⟨i, hi, mul_inv_cancel₀ (hx i hi)⟩
  have hval := congrArg (eval (x i)⁻¹) hw
  rw [eval_mul, eval_mul, hroot, zero_mul, evaluator_eval_inv e hi (hx i hi)] at hval
  have hne := mul_ne_zero (mul_ne_zero (he i hi) (hx i hi)) (locator_erase_eval_inv_ne_zero hinj hi (hx i hi))
  exact (mul_eq_zero.1 hval).resolve_right hne

end Unique

/-- Each error place adds one to the locator's degree. -/
theorem locator_natDegree {T : Finset ℕ} {x : ℕ → F} (hx : ∀ i ∈ T, x i ≠ 0) : (locator T x).natDegree = T.card := by
  have hfactor : ∀ i ∈ T, (1 - C (x i) * X).natDegree = 1 := fun i hi => by
    rw [sub_eq_neg_add, ← neg_mul, ← C_neg, ← C_1, natDegree_linear (neg_ne_zero.2 (hx i hi))]
  rw [locator, natDegree_prod _ _ fun i hi h0 => by simpa [h0] using hfactor i hi, Finset.sum_congr rfl hfactor]
  simp

end KeyEquation

end Sys2Proof.Proofs

/-! PROOFS. Lists of bytes as polynomials over the field: the operations of RsCodec.lean on coefficient lists, and buffers
with the highest degree first (41_reed_solomon R155), whose distance is the number of coefficients of their difference. -/

namespace Sys2Proof.Proofs

open Sys2Proof.Machine
open Polynomial

section

variable {F : Type} [Field F] (φ : Byte → F)

/-- The polynomial of a coefficient list from x^0 upward. -/
noncomputable def listPoly : List Byte → F[X]
  | [] => 0
  | c :: p => C (φ c) + X * listPoly p

/-- The polynomial of a buffer: its first byte is the coefficient of the highest degree (41_reed_solomon R155). -/
noncomputable def bufPoly : List Byte → F[X]
  | [] => 0
  | c :: r => C (φ c) * X ^ r.length + bufPoly r

@[simp] theorem listPoly_nil : listPoly φ [] = 0 := rfl
@[simp] theorem listPoly_cons (c : Byte) (p : List Byte) : listPoly φ (c :: p) = C (φ c) + X * listPoly φ p := rfl
@[simp] theorem bufPoly_nil : bufPoly φ [] = 0 := rfl
@[simp] theorem bufPoly_cons (c : Byte) (r : List Byte) :
    bufPoly φ (c :: r) = C (φ c) * X ^ r.length + bufPoly φ r := rfl

theorem listPoly_append (p q : List Byte) : listPoly φ (p ++ q) = listPoly φ p + X ^ p.length * listPoly φ q := by
  induction p with
  | nil => simp
  | cons c p ih => simp only [List.cons_append, listPoly_cons, ih, List.length_cons, pow_succ]; ring

theorem listPoly_coeff_eq_zero (p : List Byte) {j : ℕ} (hj : p.length ≤ j) : (listPoly φ p).coeff j = 0 := by
  induction p generalizing j with
  | nil => exact coeff_zero j
  | cons c p ih =>
    obtain ⟨j, rfl⟩ := Nat.exists_eq_succ_of_ne_zero (n := j) (by rintro rfl; simp at hj)
    simpa using ih (by simpa using hj)

/-- A list's polynomial by its constant coefficient and its tail, the empty list included. -/
theorem listPoly_eq_tail (p : List Byte) : listPoly φ p = C ((listPoly φ p).coeff 0) + X * listPoly φ (p.drop 1) := by
  cases p <;> simp

theorem listPoly_take_coeff (p : List Byte) (k j : ℕ) :
    (listPoly φ (p.take k)).coeff j = if j < k then (listPoly φ p).coeff j else 0 := by
  have hsplit := listPoly_append φ (p.take k) (p.drop k)
  rw [List.take_append_drop] at hsplit
  split
  · next hj =>
    rcases le_total p.length k with hk | hk
    · rw [List.take_of_length_le hk]
    · rw [hsplit, coeff_add, List.length_take_of_le hk, coeff_X_pow_mul', if_neg (by omega), add_zero]
  · exact listPoly_coeff_eq_zero φ _ (by rw [List.length_take]; omega)

theorem bufPoly_append (r c : List Byte) : bufPoly φ (r ++ c) = bufPoly φ r * X ^ c.length + bufPoly φ c := by
  induction r with
  | nil => simp
  | cons b r ih => simp only [List.cons_append, bufPoly_cons, ih, List.length_append, pow_add]; ring

theorem bufPoly_reverse (p : List Byte) : bufPoly φ p.reverse = listPoly φ p := by
  induction p with
  | nil => rfl
  | cons c p ih => simp [bufPoly_append, ih]; ring

theorem bufPoly_coeff_eq_zero (r : List Byte) {j : ℕ} (hj : r.length ≤ j) : (bufPoly φ r).coeff j = 0 := by
  rw [← r.reverse_reverse, bufPoly_reverse]
  exact listPoly_coeff_eq_zero φ _ (by simpa using hj)

theorem support_card_C_mul_X_pow_add {a : F} (ha : a ≠ 0) {p : F[X]} {n : ℕ} (hp : ∀ j, n ≤ j → p.coeff j = 0) :
    (C a * X ^ n + p).support.card = 1 + p.support.card := by
  have hn : n ∉ p.support := by simp [hp n le_rfl]
  have hsupp : (C a * X ^ n + p).support = insert n p.support := by
    ext j
    by_cases hj : j = n
    · simp [hj, hp n le_rfl, ha]
    · simp [coeff_X_pow, hj]
  rw [hsupp, Finset.card_insert_of_notMem hn, Nat.add_comm]

/-- Two buffers' difference has its coefficients below their length. -/
theorem lt_of_mem_support_bufPoly_sub {r c : List Byte} (hlen : r.length = c.length) {q : ℕ}
    (hq : q ∈ (bufPoly φ r - bufPoly φ c).support) : q < c.length := by
  by_contra hge
  refine mem_support_iff.1 hq ?_
  rw [coeff_sub, bufPoly_coeff_eq_zero φ r (by omega), bufPoly_coeff_eq_zero φ c (by omega), sub_zero]

end

namespace IsByteField

variable {F : Type} [Field F] {φ : Byte → F} (h : IsByteField φ)
include h

/-! ### Coefficient lists -/

theorem listPoly_add (p q : List Byte) : listPoly φ (polyAdd p q) = listPoly φ p + listPoly φ q := by
  induction p generalizing q with
  | nil => simp [polyAdd]
  | cons a p ih =>
    cases q with
    | nil => simp [polyAdd]
    | cons b q => simp only [polyAdd, listPoly_cons, ih, h.map_xor, C_add]; ring

theorem listPoly_scale (a : Byte) (p : List Byte) : listPoly φ (polyScale a p) = C (φ a) * listPoly φ p := by
  induction p with
  | nil => simp [polyScale]
  | cons c p ih =>
    rw [polyScale] at ih
    simp only [polyScale, List.map_cons, listPoly_cons, ih, h.map_gfMul, C_mul]; ring

theorem listPoly_zero_cons (p : List Byte) : listPoly φ (0 :: p) = X * listPoly φ p := by
  rw [listPoly_cons, h.map_zero, C_0, zero_add]

theorem listPoly_shift (m : Nat) (p : List Byte) : listPoly φ (polyShift m p) = X ^ m * listPoly φ p := by
  induction m with
  | zero => simp [polyShift]
  | succ m ih =>
    rw [polyShift] at ih
    rw [polyShift, List.replicate_succ, List.cons_append, h.listPoly_zero_cons, ih, pow_succ']
    ring

theorem listPoly_mul (p q : List Byte) : listPoly φ (polyMul p q) = listPoly φ p * listPoly φ q := by
  induction p with
  | nil => simp [polyMul]
  | cons a p ih =>
    rw [polyMul, h.listPoly_add, h.listPoly_scale, h.listPoly_zero_cons, ih, listPoly_cons]; ring

theorem map_polyEval (p : List Byte) (x : Byte) : φ (polyEval p x) = (listPoly φ p).eval (φ x) := by
  induction p with
  | nil => simpa [polyEval] using h.map_zero
  | cons c p ih =>
    have hcons : polyEval (c :: p) x = c ^^^ gfMul x (polyEval p x) := rfl
    simp [hcons, h.map_xor, h.map_gfMul, ih]

/-- In characteristic 2 the even terms of the derivative vanish (41_reed_solomon R161 step 6). -/
theorem listPoly_deriv (p : List Byte) : listPoly φ (polyDeriv p) = derivative (listPoly φ p) := by
  have := h.charTwo
  match p with
  | [] => simp [polyDeriv]
  | [c] => simp [polyDeriv]
  | c0 :: c1 :: p =>
    have htwo : (listPoly φ p).derivative * X ^ 2 + 2 * (X * listPoly φ p) = (listPoly φ p).derivative * X ^ 2 := by
      rw [CharTwo.two_eq_zero (R := F[X]), zero_mul, add_zero]
    have hstep : derivative (listPoly φ (c0 :: c1 :: p))
        = C (φ c1) + ((listPoly φ p).derivative * X ^ 2 + 2 * (X * listPoly φ p)) := by
      simp only [listPoly_cons, derivative_add, derivative_mul, derivative_C, derivative_X]; ring
    rw [hstep, htwo, polyDeriv, listPoly_cons, h.listPoly_zero_cons, listPoly_deriv p]; ring

/-- deg counts the coefficients up to the last nonzero one (41_reed_solomon R161 step 2). -/
theorem polyDeg_eq_natDegree (p : List Byte) : polyDeg p = (listPoly φ p).natDegree := by
  induction p using List.reverseRecOn with
  | nil => simp [polyDeg]
  | append_singleton p c ih =>
    rw [listPoly_append]
    by_cases hc : c = 0
    · have hdeg : polyDeg (p ++ [c]) = polyDeg p := by simp [polyDeg, hc]
      rw [hdeg, ih, hc, h.listPoly_zero_cons, listPoly_nil, mul_zero, mul_zero, add_zero]
    · have hdeg : polyDeg (p ++ [c]) = p.length := by
        rw [polyDeg, List.reverse_append, List.reverse_singleton, List.singleton_append,
          List.dropWhile_cons_of_neg (by simpa using hc)]
        simp
      have htop : (listPoly φ p + X ^ p.length * listPoly φ [c]).coeff p.length ≠ 0 := by
        have hcoeff := listPoly_coeff_eq_zero φ p le_rfl
        simpa [coeff_X_pow_mul', hcoeff] using mt h.map_eq_zero.1 hc
      refine hdeg.trans (le_antisymm (le_natDegree_of_ne_zero htop) (natDegree_le_iff_coeff_eq_zero.2 fun j hj => ?_))
      rw [← listPoly_append, listPoly_coeff_eq_zero φ _ (by simpa using hj)]

/-! ### Buffers -/

theorem map_bufEval (r : List Byte) (x : Byte) : φ (bufEval r x) = (bufPoly φ r).eval (φ x) := by
  have hfold : ∀ a, φ (r.foldl (fun acc c => gfMul acc x ^^^ c) a)
      = φ a * φ x ^ r.length + (bufPoly φ r).eval (φ x) := by
    induction r with
    | nil => simp
    | cons c r ih =>
      intro a
      simp only [List.foldl_cons, ih, h.map_xor, h.map_gfMul, bufPoly_cons, List.length_cons, eval_add, eval_mul, eval_C,
        eval_pow, eval_X, pow_succ]
      ring
  rw [bufEval, hfold, h.map_zero, zero_mul, zero_add]

theorem bufPoly_zipWith (g : Byte) {r c : List Byte} (hlen : r.length = c.length) :
    bufPoly φ (List.zipWith (fun a b => a ^^^ gfMul g b) r c) = bufPoly φ r + C (φ g) * bufPoly φ c := by
  induction r generalizing c with
  | nil => obtain rfl := List.length_eq_zero_iff.1 hlen.symm; simp
  | cons a r ih =>
    obtain ⟨b, c, rfl⟩ := List.exists_cons_of_length_eq_add_one hlen.symm
    have hlen' : r.length = c.length := by simpa using hlen
    simp only [List.zipWith_cons_cons, bufPoly_cons, ih hlen', List.length_zipWith, hlen', min_self, h.map_xor,
      h.map_gfMul, C_add, C_mul]
    ring

/-- A changed byte adds one term. -/
theorem bufPoly_modify (r : List Byte) (v : Byte) {q : ℕ} (hq : q < r.length) :
    bufPoly φ (r.modify (r.length - 1 - q) fun b => b ^^^ v) = bufPoly φ r + C (φ v) * X ^ q := by
  induction r with
  | nil => simp at hq
  | cons c r ih =>
    rw [List.length_cons, Nat.add_sub_cancel]
    rcases (Nat.lt_succ_iff.1 hq).eq_or_lt with rfl | hlt
    · rw [Nat.sub_self, List.modify_zero_cons, bufPoly_cons, bufPoly_cons, h.map_xor, C_add]; ring
    · have hidx : r.length - q = r.length - 1 - q + 1 := by omega
      rw [hidx, List.modify_succ_cons, bufPoly_cons, bufPoly_cons, List.length_modify, ih hlt]; ring

/-- dist counts the coefficients of the difference (41_reed_solomon R160). -/
theorem rsDist_eq_card {r c : List Byte} (hlen : r.length = c.length) :
    rsDist r c = (bufPoly φ r - bufPoly φ c).support.card := by
  induction r generalizing c with
  | nil => obtain rfl := List.length_eq_zero_iff.1 hlen.symm; simp [rsDist]
  | cons a r ih =>
    obtain ⟨b, c, rfl⟩ := List.exists_cons_of_length_eq_add_one hlen.symm
    have hlen' : r.length = c.length := by simpa using hlen
    have hsplit : bufPoly φ (a :: r) - bufPoly φ (b :: c)
        = C (φ a - φ b) * X ^ c.length + (bufPoly φ r - bufPoly φ c) := by
      simp only [bufPoly_cons, hlen', C_sub]; ring
    have hlow : ∀ j, c.length ≤ j → (bufPoly φ r - bufPoly φ c).coeff j = 0 := fun j hj => by
      rw [coeff_sub, bufPoly_coeff_eq_zero φ r (by omega), bufPoly_coeff_eq_zero φ c hj, sub_zero]
    rw [hsplit, rsDist, ih hlen']
    split
    · next hab => rw [hab, sub_self, C_0, zero_mul, zero_add, zero_add]
    · next hab => rw [support_card_C_mul_X_pow_add (sub_ne_zero.2 (h.injective.ne hab)) hlow]

theorem bufPoly_injective {r c : List Byte} (hlen : r.length = c.length) (heq : bufPoly φ r = bufPoly φ c) : r = c := by
  induction r generalizing c with
  | nil => exact (List.length_eq_zero_iff.1 hlen.symm).symm
  | cons a r ih =>
    obtain ⟨b, c, rfl⟩ := List.exists_cons_of_length_eq_add_one hlen.symm
    have hlen' : r.length = c.length := by simpa using hlen
    have hhead : φ a = φ b := by
      have htop := congrArg (coeff · c.length) heq
      simpa [hlen', bufPoly_coeff_eq_zero φ r hlen'.le, bufPoly_coeff_eq_zero φ c le_rfl] using htop
    have htail : bufPoly φ r = bufPoly φ c := by simpa [hhead, hlen'] using heq
    rw [h.injective hhead, ih hlen' htail]

end IsByteField

end Sys2Proof.Proofs

/-! PROOFS. The code (41_reed_solomon R154 to R157): the encoder's shift register divides by g(x), so the codewords are the
buffers with K zero syndromes, and two of them differ in at least K + 1 places (R160). -/

namespace Sys2Proof.Proofs

open Sys2Proof.Machine
open Polynomial

namespace IsByteField

variable {F : Type} [Field F] {φ : Byte → F} (h : IsByteField φ)
include h

/-! ### The generator (R154) -/

theorem listPoly_genPoly (k : Nat) :
    listPoly φ (genPoly k) = ∏ i ∈ Finset.range k, (X + C (φ (alphaPow (i + 1)))) := by
  induction k with
  | zero =>
    rw [genPoly, listPoly_cons, h.map_one, listPoly_nil, mul_zero, add_zero, Finset.range_zero, Finset.prod_empty, C_1]
  | succ k ih =>
    rw [genPoly, h.listPoly_add, h.listPoly_zero_cons, h.listPoly_scale, ih, Finset.prod_range_succ]; ring

theorem genPoly_eval_root {k j : Nat} (h1 : 1 ≤ j) (hj : j ≤ k) : (listPoly φ (genPoly k)).eval (φ (alphaPow j)) = 0 := by
  have := h.charTwo
  rw [h.listPoly_genPoly, eval_prod]
  refine Finset.prod_eq_zero (i := j - 1) (Finset.mem_range.2 (by omega)) ?_
  rw [Nat.sub_add_cancel h1, eval_add, eval_X, eval_C, CharTwo.add_self_eq_zero]

/-- g is monic of degree K, so the taps without the leading 1 are x^K modulo g. -/
theorem genPoly_take_eval {k : Nat} (x : F) :
    (listPoly φ ((genPoly k).take k)).eval x + x ^ k = (listPoly φ (genPoly k)).eval x := by
  have hlen : (genPoly k).drop k = [(genPoly k).getD k 0] := by
    have hlast := genPoly_length k
    rw [List.drop_eq_getElem_cons (by omega), List.drop_eq_nil_of_le (by omega)]
    simp [List.getD, hlast]
  have hsplit : listPoly φ (genPoly k) = listPoly φ ((genPoly k).take k) + X ^ k * C (φ ((genPoly k).getD k 0)) := by
    conv_lhs => rw [← List.take_append_drop k (genPoly k), listPoly_append, hlen]
    rw [List.length_take_of_le (by rw [genPoly_length]; omega)]
    simp
  have hmonic : (listPoly φ (genPoly k)).coeff k = 1 := by
    have hprod : (∏ i ∈ Finset.range k, (X + C (φ (alphaPow (i + 1))))).Monic :=
      monic_prod_of_monic _ _ fun i _ => monic_X_add_C _
    have hdeg : (∏ i ∈ Finset.range k, (X + C (φ (alphaPow (i + 1))))).natDegree = k := by
      rw [natDegree_prod_of_monic _ _ fun i _ => monic_X_add_C _]; simp
    rw [h.listPoly_genPoly]
    have hcoeff := hprod.coeff_natDegree
    rwa [hdeg] at hcoeff
  have htop : φ ((genPoly k).getD k 0) = 1 := by
    rw [hsplit, coeff_add, listPoly_take_coeff, if_neg (lt_irrefl k), coeff_X_pow_mul', if_pos le_rfl, Nat.sub_self,
      coeff_C_zero, zero_add] at hmonic
    exact hmonic
  rw [hsplit, htop]
  simp

/-! ### The encoder (R156) -/

/-- One turn of the shift register at a root of g: the register times x, and the data byte times x^K. -/
theorem encodeByte_eval {k : Nat} (hk : 1 ≤ k) {x : F} (hx : (listPoly φ (genPoly k)).eval x = 0) (b : Byte)
    {reg : List Byte} (hreg : reg.length = k) :
    (bufPoly φ (encodeByte ((genPoly k).take k).reverse reg b)).eval x
      = (bufPoly φ reg).eval x * x + φ b * x ^ k := by
  have := h.charTwo
  obtain ⟨a, reg, rfl⟩ := List.exists_cons_of_length_pos (l := reg) (by omega)
  have htaps : (listPoly φ ((genPoly k).take k)).eval x = x ^ k :=
    CharTwo.add_eq_zero.1 (by rw [h.genPoly_take_eval, hx])
  have hlen : (reg ++ [0]).length = ((genPoly k).take k).reverse.length := by
    rw [List.length_reverse, List.length_take_of_le (by rw [genPoly_length]; omega), ← hreg]; simp
  have hpow : x ^ k = x ^ reg.length * x := by rw [← hreg, List.length_cons, pow_succ]
  have hstep : encodeByte ((genPoly k).take k).reverse (a :: reg) b
      = List.zipWith (fun r g => r ^^^ gfMul (b ^^^ a) g) (reg ++ [0]) ((genPoly k).take k).reverse := rfl
  rw [hstep, h.bufPoly_zipWith _ hlen, bufPoly_reverse, bufPoly_append, h.map_xor, bufPoly_cons]
  simp only [bufPoly_cons, bufPoly_nil, h.map_zero, List.length_singleton, List.length_nil, eval_add, eval_mul, eval_pow,
    eval_C, eval_X, htaps, pow_one, pow_zero, C_0, zero_mul, add_zero]
  linear_combination φ a * hpow

theorem foldl_encodeByte_eval {k : Nat} (hk : 1 ≤ k) {x : F} (hx : (listPoly φ (genPoly k)).eval x = 0) (data : List Byte)
    {reg : List Byte} (hreg : reg.length = k) :
    (bufPoly φ (data.foldl (encodeByte ((genPoly k).take k).reverse) reg)).eval x
      = (bufPoly φ reg).eval x * x ^ data.length + (bufPoly φ data).eval x * x ^ k := by
  induction data generalizing reg with
  | nil => simp
  | cons b data ih =>
    have htaps : ((genPoly k).take k).reverse.length = k := by simp [genPoly_length]
    rw [List.foldl_cons, ih ((encodeByte_length b (hreg.trans htaps.symm)).trans htaps), h.encodeByte_eval hk hx b hreg,
      bufPoly_cons, List.length_cons]
    simp only [eval_add, eval_mul, eval_pow, eval_C, eval_X]
    ring

theorem bufPoly_replicate_zero (k : Nat) : bufPoly φ (List.replicate k 0) = 0 := by
  induction k with
  | zero => rfl
  | succ k ih => rw [List.replicate_succ, bufPoly_cons, ih, h.map_zero, C_0, zero_mul, add_zero]

/-- The parity is the data times x^K, modulo g. -/
theorem rsEncode_eval {k j : Nat} (h1 : 1 ≤ j) (hj : j ≤ k) (data : List Byte) :
    (bufPoly φ (rsEncode data k)).eval (φ (alphaPow j))
      = (bufPoly φ data).eval (φ (alphaPow j)) * φ (alphaPow j) ^ k := by
  rw [rsEncode, h.foldl_encodeByte_eval (h1.trans hj) (h.genPoly_eval_root h1 hj) data List.length_replicate,
    h.bufPoly_replicate_zero, eval_zero, zero_mul, zero_add]

/-- Every codeword has zero syndromes (R157). -/
theorem codeword_eval {k j : Nat} (h1 : 1 ≤ j) (hj : j ≤ k) (data : List Byte) :
    (bufPoly φ (data ++ rsEncode data k)).eval (φ (alphaPow j)) = 0 := by
  have := h.charTwo
  rw [bufPoly_append, eval_add, eval_mul, eval_pow, eval_X, h.rsEncode_eval h1 hj, rsEncode_length,
    CharTwo.add_self_eq_zero]

/-! ### Syndromes of an error polynomial (R157) -/

/-- The value at α^j by the coefficients: S_j = Σ e_q (α^q)^j. -/
theorem eval_alphaPow (p : F[X]) (j : Nat) :
    p.eval (φ (alphaPow j)) = ∑ q ∈ p.support, p.coeff q * place φ q ^ j := by
  rw [eval_eq_sum, Polynomial.sum]
  refine Finset.sum_congr rfl fun q _ => ?_
  rw [place, h.map_alphaPow_pow, h.map_alphaPow_pow, Nat.mul_comm]

/-- A polynomial of degree below 255 with at most K coefficients and K zero syndromes is zero. -/
theorem eq_zero_of_eval_alphaPow {p : F[X]} {k : Nat} (hdeg : ∀ q ∈ p.support, q < 255) (hcard : p.support.card ≤ k)
    (heval : ∀ j, 1 ≤ j → j ≤ k → p.eval (φ (alphaPow j)) = 0) : p = 0 := by
  have hsyn : syndromePoly p.support p.coeff (place φ) k = 0 := by
    ext j
    rw [syndromePoly_coeff, coeff_zero]
    split
    · rw [← h.eval_alphaPow, heval (j + 1) (by omega) (by omega)]
    · rfl
  by_contra hne
  obtain ⟨q, hq⟩ := nonempty_support_iff.2 hne
  exact mem_support_iff.1 hq (eq_zero_of_syndromePoly_eq_zero (h.place_injOn hdeg)
    (fun i _ => h.place_ne_zero i) hcard hsyn hq)

/-- Two buffers with the same syndromes that differ in at most K places are the same. -/
theorem eq_of_same_syndromes {r c : List Byte} {k : Nat} (hlen : r.length = c.length) (hc : c.length ≤ 255)
    (hdist : rsDist r c ≤ k)
    (hsyn : ∀ j, 1 ≤ j → j ≤ k → (bufPoly φ r).eval (φ (alphaPow j)) = (bufPoly φ c).eval (φ (alphaPow j))) : r = c := by
  rw [h.rsDist_eq_card hlen] at hdist
  refine h.bufPoly_injective hlen (sub_eq_zero.1 (h.eq_zero_of_eval_alphaPow (k := k) (fun q hq => ?_) hdist ?_))
  · exact (lt_of_mem_support_bufPoly_sub φ hlen hq).trans_le hc
  · intro j h1 hj
    rw [eval_sub, hsyn j h1 hj, sub_self]

end IsByteField

/-! ### Codewords (R157, R160) -/

theorem rsDist_le_length (r c : List Byte) : rsDist r c ≤ c.length := by
  induction r generalizing c with
  | nil => simp [rsDist]
  | cons a r ih =>
    cases c with
    | nil => simp [rsDist]
    | cons b c =>
      have := ih c
      rw [rsDist, List.length_cons]
      split <;> omega

theorem rsDist_append_left (data r c : List Byte) : rsDist (data ++ r) (data ++ c) = rsDist r c := by
  induction data with
  | nil => rfl
  | cons b data ih => rw [List.cons_append, List.cons_append, rsDist, if_pos rfl, ih, Nat.zero_add]

/-- Settles O37: the register divides by g, whose roots are α^1 .. α^K; and two buffers with the same data and the same
syndromes differ in at most the K parity places, so they are the same. -/
theorem codewordsAreTheZeroSyndromeBuffers : Obligations.CodewordsAreTheZeroSyndromeBuffers := by
  obtain ⟨F, _, φ, h⟩ := exists_byteField
  intro r d k _ hdk hlen
  constructor
  · rintro ⟨data, -, rfl⟩ j h1 hj
    rw [← h.map_eq_zero, h.map_bufEval, h.codeword_eval h1 hj]
  · intro hzero
    obtain ⟨data, rest, hdata, rfl⟩ : ∃ data rest, data.length = d ∧ r = data ++ rest :=
      ⟨r.take d, r.drop d, List.length_take_of_le (by omega), (List.take_append_drop d r).symm⟩
    have hrest : rest.length = (rsEncode data k).length := by
      rw [List.length_append] at hlen; rw [rsEncode_length]; omega
    refine ⟨data, hdata, h.eq_of_same_syndromes (k := k) ?_ ?_ ?_ fun j h1 hj => ?_⟩
    · rw [List.length_append, List.length_append, hrest]
    · rw [List.length_append, rsEncode_length, hdata]; exact hdk
    · rw [rsDist_append_left]
      exact (rsDist_le_length rest _).trans (rsEncode_length data k).le
    · rw [h.codeword_eval h1 hj, ← h.map_bufEval, hzero j h1 hj, h.map_zero]

/-- Settles O38: two codewords have the same syndromes, so at most K different places would make them equal. -/
theorem codewordsAreFarApart : Obligations.CodewordsAreFarApart := by
  obtain ⟨F, _, φ, h⟩ := exists_byteField
  intro d1 d2 d k _ hdk hd1 hd2 hne
  by_contra hdist
  have heq : d1 ++ rsEncode d1 k = d2 ++ rsEncode d2 k := by
    refine h.eq_of_same_syndromes (k := k) ?_ ?_ (by omega) fun j h1 hj => ?_
    · simp only [List.length_append, rsEncode_length, hd1, hd2]
    · simp only [List.length_append, rsEncode_length, hd2, hdk]
    · rw [h.codeword_eval h1 hj, h.codeword_eval h1 hj]
  exact hne (List.append_inj_left heq (hd1.trans hd2.symm))

end Sys2Proof.Proofs

/-! PROOFS. Berlekamp–Massey (41_reed_solomon R161 step 2): after each syndrome the register generates all syndromes so far,
and it is no longer than any register that does. -/

namespace Sys2Proof.Proofs

open Sys2Proof.Machine
open Polynomial

/-! ### Correcting a register -/

section

variable {F : Type} [Field F] {S p B : F[X]} {g L N n : ℕ} {d : F}

/-- What Berlekamp–Massey keeps of the register before the last growth, shifted by g: x^g·B·S has d at n, and zeros just
below it, as far down as a register of length n + 1 − L looks. -/
structure Correction (S B : F[X]) (g L n : ℕ) (d : F) : Prop where
  ne_zero : d ≠ 0
  pos : 1 ≤ g
  natDegree_add_le : B.natDegree + g + L ≤ n + 1
  coeff_mul : ∀ j, n < j + L → j ≤ n → (X ^ g * B * S).coeff j = if j = n then d else 0

theorem Correction.shift (h : Correction S B g L n d) (hL : L ≤ n) : Correction S B (g + 1) L (n + 1) d where
  ne_zero := h.ne_zero
  pos := Nat.le_add_left 1 g
  natDegree_add_le := by have := h.natDegree_add_le; omega
  coeff_mul := fun j hlow hj => by
    obtain ⟨j, rfl⟩ := Nat.exists_eq_succ_of_ne_zero (n := j) (by omega)
    rw [pow_succ', mul_assoc X, mul_assoc X, coeff_X_mul, h.coeff_mul j (by omega) (by omega)]
    simp only [Nat.succ_eq_add_one, Nat.add_right_cancel_iff]

/-- A register that fails at n is the correction for the longer one that replaces it. -/
theorem Generates.correction (h : Generates S p L n) (hL : L ≤ n) (hne : (p * S).coeff n ≠ 0) :
    Correction S p 1 (n + 1 - L) (n + 1) ((p * S).coeff n) where
  ne_zero := hne
  pos := le_rfl
  natDegree_add_le := by have := h.natDegree_le; omega
  coeff_mul := fun j hlow hj => by
    obtain ⟨j, rfl⟩ := Nat.exists_eq_succ_of_ne_zero (n := j) (by omega)
    rw [pow_one, mul_assoc X, coeff_X_mul]
    split
    · next hjn => rw [Nat.succ_injective hjn]
    · exact h.coeff_mul j (by omega) (by omega)

/-- Adding the right multiple of the correction makes the register generate the coefficient at n too. -/
theorem Generates.correct (h : Generates S p L n) (hB : Correction S B g L n d) (hL : L ≤ N) (hN : n + 1 ≤ N + L) {c : F}
    (hc : (p * S).coeff n + c * d = 0) : Generates S (p + C c * (X ^ g * B)) N (n + 1) where
  coeff_zero := by
    have hpos := hB.pos
    rw [coeff_add, h.coeff_zero, coeff_C_mul, coeff_X_pow_mul', if_neg (by omega), mul_zero, add_zero]
  natDegree_le := by
    have hp := h.natDegree_le
    have hg := hB.natDegree_add_le
    have hshift : (C c * (X ^ g * B)).natDegree ≤ B.natDegree + g :=
      (natDegree_C_mul_le _ _).trans (natDegree_mul_le.trans (by rw [natDegree_X_pow, Nat.add_comm]))
    exact natDegree_add_le_of_degree_le (by omega) (by omega)
  coeff_mul := fun j hlow hj => by
    rw [add_mul, mul_assoc, coeff_add, coeff_C_mul, hB.coeff_mul j (by omega) (by omega)]
    split
    · next hjn => rw [hjn, hc]
    · rw [h.coeff_mul j (by omega) (by omega), mul_zero, add_zero]

theorem Generates.succ (h : Generates S p L n) (hn : (p * S).coeff n = 0) : Generates S p L (n + 1) where
  coeff_zero := h.coeff_zero
  natDegree_le := h.natDegree_le
  coeff_mul := fun j hlow hj => by
    rcases (Nat.lt_succ_iff.1 hj).eq_or_lt with rfl | hlt
    · exact hn
    · exact h.coeff_mul j hlow hlt

end

/-! ### One syndrome -/

/-- The discrepancy of the next syndrome (R161 step 2). -/
def bmDiscrepancy (b : BmState) (prev : List Byte) (syn : Byte) : Byte :=
  (List.zipWith gfMul (b.lam.drop 1) prev).foldl (· ^^^ ·) syn

/-- λ with the correction for a discrepancy. -/
def bmCorrected (b : BmState) (disc : Byte) : List Byte :=
  polyAdd b.lam (polyShift b.gap (polyScale (gfDiv disc b.prevDisc) b.prevLam))

section

variable {b : BmState} {prev : List Byte} {n : Nat} {syn : Byte}

theorem bmStep_of_discrepancy_eq_zero (h : bmDiscrepancy b prev syn = 0) :
    bmStep b prev n syn = { b with gap := b.gap + 1 } := if_pos h

theorem bmStep_grows (h : bmDiscrepancy b prev syn ≠ 0) (hn : 2 * b.len ≤ n) :
    bmStep b prev n syn
      = ⟨bmCorrected b (bmDiscrepancy b prev syn), b.lam, n + 1 - b.len, 1, bmDiscrepancy b prev syn⟩ :=
  (if_neg h).trans (if_pos hn)

theorem bmStep_keeps_len (h : bmDiscrepancy b prev syn ≠ 0) (hn : ¬2 * b.len ≤ n) :
    bmStep b prev n syn = { b with lam := bmCorrected b (bmDiscrepancy b prev syn), gap := b.gap + 1 } :=
  (if_neg h).trans (if_neg hn)

end

/-- The invariant of the search: λ generates the first n syndromes, and the older register is its correction. -/
structure BmInv {F : Type} [Field F] (φ : Byte → F) (S : F[X]) (n : Nat) (b : BmState) : Prop where
  len_le : b.len ≤ n
  generates : Generates S (listPoly φ b.lam) b.len n
  correction : Correction S (listPoly φ b.prevLam) b.gap b.len n (φ b.prevDisc)

theorem listPoly_reverse_append_coeff {F : Type} [Field F] (φ : Byte → F) (w rest : List Byte) (y : Byte) :
    (listPoly φ (w.reverse ++ y :: rest)).coeff w.length = φ y := by
  rw [listPoly_append, coeff_add, listPoly_coeff_eq_zero φ _ (by simp), List.length_reverse, coeff_X_pow_mul',
    if_pos le_rfl, Nat.sub_self]
  simp

namespace IsByteField

variable {F : Type} [Field F] {φ : Byte → F} (h : IsByteField φ)
include h

theorem map_foldl_xor (l : List Byte) (a : Byte) : φ (l.foldl (· ^^^ ·) a) = φ a + (l.map φ).sum := by
  induction l generalizing a with
  | nil => simp
  | cons b l ih => rw [List.foldl_cons, ih, h.map_xor, List.map_cons, List.sum_cons, add_assoc]

/-- The sum over the earlier syndromes, newest first, is a coefficient of a product. -/
theorem sum_zipWith_eq_coeff (p w rest : List Byte) :
    ((List.zipWith gfMul p w).map φ).sum = (X * listPoly φ p * listPoly φ (w.reverse ++ rest)).coeff w.length := by
  induction p generalizing w rest with
  | nil => simp
  | cons a p ih =>
    cases w with
    | nil => simp [mul_assoc, mul_coeff_zero]
    | cons y w =>
      rw [List.zipWith_cons_cons, List.map_cons, List.sum_cons, h.map_gfMul, ih w (y :: rest),
        ← listPoly_reverse_append_coeff φ w rest y, List.reverse_cons, List.append_assoc, List.singleton_append,
        List.length_cons, mul_assoc X (listPoly φ (a :: p)), coeff_X_mul, listPoly_cons, add_mul, coeff_add, coeff_C_mul]

theorem map_bmDiscrepancy {b : BmState} (h1 : (listPoly φ b.lam).coeff 0 = 1) (prev rest : List Byte) (syn : Byte) :
    φ (bmDiscrepancy b prev syn) = (listPoly φ b.lam * listPoly φ (prev.reverse ++ syn :: rest)).coeff prev.length := by
  rw [bmDiscrepancy, h.map_foldl_xor, h.sum_zipWith_eq_coeff _ _ (syn :: rest), listPoly_eq_tail φ b.lam, h1, add_mul,
    coeff_add, C_1, one_mul, listPoly_reverse_append_coeff]

theorem listPoly_bmCorrected (b : BmState) (disc : Byte) :
    listPoly φ (bmCorrected b disc)
      = listPoly φ b.lam + C (φ (gfDiv disc b.prevDisc)) * (X ^ b.gap * listPoly φ b.prevLam) := by
  rw [bmCorrected, h.listPoly_add, h.listPoly_shift, h.listPoly_scale]; ring

/-- In characteristic 2 the quotient of the discrepancies is the multiple that cancels the new one. -/
theorem add_gfDiv_mul_eq_zero (disc : Byte) {e : Byte} (he : φ e ≠ 0) : φ disc + φ (gfDiv disc e) * φ e = 0 := by
  have := h.charTwo
  rw [h.map_gfDiv disc (mt h.map_eq_zero.2 he), div_mul_cancel₀ _ he, CharTwo.add_self_eq_zero]

section Step

variable {S q : F[X]} {M : Nat} {b : BmState} {prev : List Byte} {n : Nat} {syn : Byte}

/-- A zero discrepancy lengthens the generated part as it is; any other is cancelled by the correction, and where the
register grows, the old one becomes the correction. -/
theorem bmStep_inv (hb : BmInv φ S n b) (hdisc : φ (bmDiscrepancy b prev syn) = (listPoly φ b.lam * S).coeff n) :
    BmInv φ S (n + 1) (bmStep b prev n syn) := by
  obtain ⟨hlen, hgen, hcor⟩ := hb
  have hcancel : (listPoly φ b.lam * S).coeff n + φ (gfDiv (bmDiscrepancy b prev syn) b.prevDisc) * φ b.prevDisc = 0 := by
    rw [← hdisc, h.add_gfDiv_mul_eq_zero _ hcor.ne_zero]
  by_cases hzero : bmDiscrepancy b prev syn = 0
  · rw [bmStep_of_discrepancy_eq_zero hzero]
    exact ⟨by change b.len ≤ n + 1; omega, hgen.succ (by rw [← hdisc, hzero, h.map_zero]), hcor.shift hlen⟩
  have hne : (listPoly φ b.lam * S).coeff n ≠ 0 := hdisc ▸ mt h.map_eq_zero.1 hzero
  by_cases hgrow : 2 * b.len ≤ n
  · rw [bmStep_grows hzero hgrow]
    refine ⟨Nat.sub_le _ _, ?_, ?_⟩
    · rw [h.listPoly_bmCorrected]
      exact hgen.correct hcor (by change b.len ≤ n + 1 - b.len; omega)
        (by change n + 1 ≤ n + 1 - b.len + b.len; omega) hcancel
    · change Correction S (listPoly φ b.lam) 1 (n + 1 - b.len) (n + 1) (φ (bmDiscrepancy b prev syn))
      rw [hdisc]
      exact hgen.correction hlen hne
  · rw [bmStep_keeps_len hzero hgrow]
    refine ⟨by change b.len ≤ n + 1; omega, ?_, hcor.shift hlen⟩
    rw [h.listPoly_bmCorrected]
    exact hgen.correct hcor le_rfl (by omega) hcancel

/-- The register grows only where Massey's bound makes every other one as long. -/
theorem bmStep_len_le (hb : BmInv φ S n b) (hdisc : φ (bmDiscrepancy b prev syn) = (listPoly φ b.lam * S).coeff n)
    (hq : Generates S q M (n + 1)) (hM : b.len ≤ M) : (bmStep b prev n syn).len ≤ M := by
  by_cases hzero : bmDiscrepancy b prev syn = 0
  · rwa [bmStep_of_discrepancy_eq_zero hzero]
  by_cases hgrow : 2 * b.len ≤ n
  · have hne : (listPoly φ b.lam * S).coeff n ≠ 0 := hdisc ▸ mt h.map_eq_zero.1 hzero
    have hbound := hb.generates.le_add_of_coeff_ne_zero hq hne
    rw [bmStep_grows hzero hgrow]
    change n + 1 - b.len ≤ M
    omega
  · rwa [bmStep_keeps_len hzero hgrow]

end Step

/-! ### All syndromes -/

/-- The induction over the syndromes, with those already consumed in `prev`, newest first. -/
theorem bmLoop_inv {S q : F[X]} {M : Nat} {syns prev : List Byte} {b : BmState}
    (hS : S = listPoly φ (prev.reverse ++ syns)) (hb : BmInv φ S prev.length b) (hM : b.len ≤ M)
    (hq : Generates S q M (prev.length + syns.length)) :
    BmInv φ S (prev.length + syns.length) (bmLoop syns prev prev.length b)
      ∧ (bmLoop syns prev prev.length b).len ≤ M := by
  induction syns generalizing prev b with
  | nil => exact ⟨hb, hM⟩
  | cons syn rest ih =>
    have hdisc : φ (bmDiscrepancy b prev syn) = (listPoly φ b.lam * S).coeff prev.length := by
      rw [hS]; exact h.map_bmDiscrepancy hb.generates.coeff_zero prev rest syn
    have hcount : (syn :: prev).length + rest.length = prev.length + (syn :: rest).length := by
      simp only [List.length_cons]; omega
    rw [← hcount] at hq ⊢
    exact ih (by rw [hS]; simp) (h.bmStep_inv hb hdisc)
      (h.bmStep_len_le hb hdisc (hq.mono (by simp)) hM) hq

/-- The error locator generates all syndromes, with a register no longer than any other that does. -/
theorem errorLocator_generates {q : F[X]} {M : Nat} {syns : List Byte} {k : Nat} (hlen : syns.length = k)
    (hq : Generates (listPoly φ syns) q M k) :
    ∃ L, L ≤ M ∧ Generates (listPoly φ syns) (listPoly φ (errorLocator syns)) L k := by
  subst hlen
  have hone : listPoly φ [1] = 1 := by rw [listPoly_cons, h.map_one, listPoly_nil, mul_zero, add_zero, C_1]
  have hinit : BmInv φ (listPoly φ syns) 0 ⟨[1], [1], 0, 1, 1⟩ := by
    refine ⟨le_rfl, ?_, ?_⟩
    · rw [hone]; exact ⟨coeff_one_zero, natDegree_one.le, fun j _ hj => absurd hj (Nat.not_lt_zero j)⟩
    · rw [hone, h.map_one]
      exact ⟨one_ne_zero, le_rfl, by simp, fun j hlow hj => absurd hlow (by change ¬0 < j + 0; omega)⟩
  have hloop := h.bmLoop_inv (prev := []) rfl hinit (Nat.zero_le M) (by simpa using hq)
  rw [List.length_nil, Nat.zero_add] at hloop
  exact ⟨_, hloop.2, hloop.1.generates⟩

end IsByteField

end Sys2Proof.Proofs

/-! PROOFS. The decoder (41_reed_solomon R160, R161): its answers are near codewords, and from at most K div 2 wrong bytes the
search reconstructs the error polynomial r − c: its locator, its places and its values. -/

namespace Sys2Proof.Proofs

open Sys2Proof.Machine
open Polynomial

/-! ### Soundness: membership and distance are tested -/

theorem isCodeword_append {data : List Byte} {d : Nat} (k : Nat) (hd : data.length = d) :
    isCodeword (data ++ rsEncode data k) d k = true := by
  rw [isCodeword, decide_eq_true_eq, List.drop_left' hd, List.take_left' hd]

/-- The codewords of R160 are the buffers that `isCodeword` accepts. -/
theorem exists_data_of_isCodeword {c : List Byte} {d k : Nat} (hlen : c.length = d + k) (h : isCodeword c d k = true) :
    ∃ data : List Byte, data.length = d ∧ c = data ++ rsEncode data k := by
  refine ⟨c.take d, List.length_take_of_le (by omega), ?_⟩
  conv_lhs => rw [← List.take_append_drop d c, of_decide_eq_true h]

theorem rsDist_self (r : List Byte) : rsDist r r = 0 := by
  induction r with
  | nil => rfl
  | cons b r ih => rw [rsDist, if_pos rfl, ih]

theorem applyErrors_length (n : Nat) (omega lam : List Byte) (qs : List Nat) (r : List Byte) :
    (applyErrors n omega lam qs r).length = r.length := by
  induction qs generalizing r with
  | nil => rfl
  | cons q qs ih => exact (ih _).trans (List.length_modify _ _ _)

theorem rsSearch_length {r c : List Byte} {d k : Nat} (h : rsSearch r d k = some c) : c.length = r.length := by
  simp only [rsSearch, Option.ite_none_left_eq_some, Option.some.injEq] at h
  obtain ⟨-, -, -, -, rfl⟩ := h
  exact applyErrors_length _ _ _ _ _

theorem rsDecode_of_isCodeword {r : List Byte} {d k : Nat} (h : isCodeword r d k = true) : rsDecode r d k = some (0, r) :=
  if_pos h

/-- What Decode can answer: the buffer itself, or what the search proposes and the tests of R160 pass. -/
theorem rsDecode_cases {r c : List Byte} {d k count : Nat} (h : rsDecode r d k = some (count, c)) :
    (c = r ∧ count = 0) ∨ (rsSearch r d k = some c ∧ count = rsDist r c ∧ rsDist r c ≤ k / 2) := by
  unfold rsDecode at h
  split at h
  · cases h; exact .inl ⟨rfl, rfl⟩
  · split at h
    · cases h
    · next c' hsearch =>
      split at h <;> cases h
      next htests => exact .inr ⟨hsearch, rfl, of_decide_eq_true (Bool.and_eq_true_iff.1 htests).2⟩

theorem rsDecode_sound {r c : List Byte} {d k count : Nat} (hlen : r.length = d + k)
    (h : rsDecode r d k = some (count, c)) :
    (∃ data : List Byte, data.length = d ∧ c = data ++ rsEncode data k)
      ∧ rsDist r c = count ∧ count ≤ k / 2 ∧ c.length = d + k := by
  have hcode := isCodeword_of_rsDecode h
  rcases rsDecode_cases h with ⟨rfl, rfl⟩ | ⟨hsearch, rfl, hdist⟩
  · exact ⟨exists_data_of_isCodeword hlen hcode, rsDist_self _, Nat.zero_le _, hlen⟩
  · have hclen := (rsSearch_length hsearch).trans hlen
    exact ⟨exists_data_of_isCodeword hclen hcode, rfl, hdist, hclen⟩

/-- Settles O39: the tests of membership and distance stand between the search and every answer. -/
theorem decodeAnswersOnlyNearCodewords : Obligations.DecodeAnswersOnlyNearCodewords := by
  refine fun r d k hlen => ⟨fun count c h => rsDecode_sound hlen h, fun data hd hr => ?_⟩
  subst hr
  exact rsDecode_of_isCodeword (isCodeword_append k hd)

/-! ### The search on a buffer near a codeword -/

/-- The search answers when its four checks pass (R161 steps 3 to 5). -/
theorem rsSearch_of_checks {r lam : List Byte} {d k : Nat} (hlam : errorLocator (syndromes r k) = lam)
    (hdeg : polyDeg lam ≠ 0) (hroots : (chienSearch lam).length = polyDeg lam) (hk : polyDeg lam ≤ k / 2)
    (hplaces : ∀ q ∈ chienSearch lam, q < d + k) :
    rsSearch r d k
      = some (applyErrors (d + k) ((polyMul (syndromes r k) lam).take k) lam (chienSearch lam) r) := by
  have hany : ¬(chienSearch lam).any (fun q => decide (d + k ≤ q)) = true := by
    simpa using hplaces
  simp only [rsSearch, hlam, if_neg hdeg, hroots, ne_eq, not_true_eq_false, if_false,
    if_neg (Nat.not_lt.2 hk), if_neg hany]

theorem chienSearch_nodup (lam : List Byte) : (chienSearch lam).Nodup := List.nodup_range.filter _

namespace IsByteField

variable {F : Type} [Field F] {φ : Byte → F} (h : IsByteField φ)
include h

theorem listPoly_coeff (p : List Byte) (j : ℕ) : (listPoly φ p).coeff j = φ (p.getD j 0) := by
  induction p generalizing j with
  | nil => simpa using h.map_zero.symm
  | cons c p ih =>
    cases j with
    | zero => simp
    | succ j => simpa [coeff_C] using ih j

theorem bufPoly_applyErrors (omega lam : List Byte) {n : ℕ} {qs : List ℕ} {r : List Byte} (hlen : r.length = n)
    (hqs : ∀ q ∈ qs, q < n) :
    bufPoly φ (applyErrors n omega lam qs r)
      = bufPoly φ r + (qs.map fun q => C (φ (forneyValue omega lam q)) * X ^ q).sum := by
  induction qs generalizing r with
  | nil => simp [applyErrors]
  | cons q qs ih =>
    have hq : q < r.length := hlen ▸ hqs q List.mem_cons_self
    have hstep := h.bufPoly_modify r (forneyValue omega lam q) hq
    rw [hlen] at hstep
    have hcons : applyErrors n omega lam (q :: qs) r
        = applyErrors n omega lam qs (r.modify (n - 1 - q) fun b => b ^^^ forneyValue omega lam q) := rfl
    rw [hcons, ih ((List.length_modify _ _ _).trans hlen) fun q' hq' => hqs q' (List.mem_cons_of_mem _ hq'), hstep,
      List.map_cons, List.sum_cons, add_assoc]

section Near

/-! Here T are the places q of the errors, e their values, and α^q their locations. -/

variable {T : Finset ℕ} {e : ℕ → F} {k : ℕ} {syns lam : List Byte}

/-- Chien's search finds the error places. -/
theorem mem_chienSearch (hT : ∀ q ∈ T, q < 255) (hlam : listPoly φ lam = locator T (place φ)) (q : ℕ) :
    q ∈ chienSearch lam ↔ q ∈ T := by
  have hroot : polyEval lam (alphaInvPow q) = 0 ↔ ∃ i ∈ T, place φ i * (place φ q)⁻¹ = 1 := by
    rw [← h.map_eq_zero, h.map_polyEval, hlam, h.map_alphaInvPow, locator_eval_eq_zero_iff]
  rw [chienSearch, List.mem_filter, List.mem_range, decide_eq_true_eq, hroot]
  constructor
  · rintro ⟨hq, i, hi, hmul⟩
    have heq := alphaPow_inj.1 (h.injective (mul_inv_eq_one₀ (h.place_ne_zero q) |>.1 hmul))
    rw [Nat.mod_eq_of_lt (hT i hi), Nat.mod_eq_of_lt hq] at heq
    exact heq ▸ hi
  · exact fun hq => ⟨hT q hq, q, hq, mul_inv_cancel₀ (h.place_ne_zero q)⟩

theorem toFinset_chienSearch (hT : ∀ q ∈ T, q < 255) (hlam : listPoly φ lam = locator T (place φ)) :
    (chienSearch lam).toFinset = T := by
  ext q
  rw [List.mem_toFinset, h.mem_chienSearch hT hlam]

theorem chienSearch_length (hT : ∀ q ∈ T, q < 255) (hlam : listPoly φ lam = locator T (place φ)) :
    (chienSearch lam).length = T.card := by
  rw [← List.toFinset_card_of_nodup (chienSearch_nodup lam), h.toFinset_chienSearch hT hlam]

/-- R161's Ω is the evaluator. -/
theorem listPoly_omega (hcard : T.card ≤ k) (hsyns : listPoly φ syns = syndromePoly T e (place φ) k)
    (hlam : listPoly φ lam = locator T (place φ)) :
    listPoly φ ((polyMul syns lam).take k) = evaluator T e (place φ) := by
  ext j
  rw [listPoly_take_coeff, h.listPoly_mul, hsyns, hlam, mul_comm]
  split
  · next hj => rw [locator_mul_syndromePoly_coeff T e _ hj]
  · rw [evaluator_coeff_eq_zero e _ (by omega)]

/-- Forney's value is the error value; its divisor is not zero as the roots of Λ are simple. -/
theorem map_forneyValue {omega : List Byte} (hT : ∀ q ∈ T, q < 255)
    (homega : listPoly φ omega = evaluator T e (place φ))
    (hlam : listPoly φ lam = locator T (place φ)) {q : ℕ} (hq : q ∈ T) :
    φ (forneyValue omega lam q) = -e q := by
  have hinj := h.place_injOn hT
  have hx := h.place_ne_zero q
  have hdiv : polyEval (polyDeriv lam) (alphaInvPow q) ≠ 0 := by
    rw [Ne, ← h.map_eq_zero, h.map_polyEval, h.listPoly_deriv, hlam, h.map_alphaInvPow,
      derivative_locator_eval_inv hq hx, neg_eq_zero]
    exact mul_ne_zero hx (locator_erase_eval_inv_ne_zero hinj hq hx)
  rw [forneyValue, h.map_gfDiv _ hdiv, h.map_polyEval, h.map_polyEval, h.listPoly_deriv, homega, hlam, h.map_alphaInvPow,
    evaluator_div_derivative e hinj hq hx]

end Near

/-! Here the errors are the terms of a polynomial E, which the search reconstructs from the syndromes. -/

section Search

variable {E : F[X]} {n k : ℕ} {syns lam r : List Byte}

theorem listPoly_errorLocator (hE : ∀ q ∈ E.support, q < 255) (hcard : 2 * E.support.card ≤ k) (hlen : syns.length = k)
    (hsyns : listPoly φ syns = syndromePoly E.support E.coeff (place φ) k) :
    listPoly φ (errorLocator syns) = locator E.support (place φ) := by
  have hgen := locator_generates E.support E.coeff (place φ) k
  rw [← hsyns] at hgen
  obtain ⟨L, hL, hreg⟩ := h.errorLocator_generates hlen hgen
  rw [hsyns] at hreg
  exact hreg.eq_locator hL hcard (h.place_injOn hE) (fun q _ => h.place_ne_zero q) fun q => mem_support_iff.1

/-- Correcting the located bytes by Forney's values subtracts E. -/
theorem bufPoly_applyErrors_chienSearch (hE : ∀ q ∈ E.support, q < 255) (hcard : E.support.card ≤ k)
    (hsyns : listPoly φ syns = syndromePoly E.support E.coeff (place φ) k)
    (hlam : listPoly φ lam = locator E.support (place φ)) (hlen : r.length = n) (hplaces : ∀ q ∈ chienSearch lam, q < n) :
    bufPoly φ (applyErrors n ((polyMul syns lam).take k) lam (chienSearch lam) r) = bufPoly φ r - E := by
  have homega := h.listPoly_omega hcard hsyns hlam
  rw [h.bufPoly_applyErrors _ _ hlen hplaces, ← List.sum_toFinset _ (chienSearch_nodup lam),
    h.toFinset_chienSearch hE hlam, sub_eq_add_neg]
  conv_rhs => rw [E.as_sum_support_C_mul_X_pow, ← Finset.sum_neg_distrib]
  refine congrArg (bufPoly φ r + ·) (Finset.sum_congr rfl fun q hq => ?_)
  rw [h.map_forneyValue hE homega hlam hq, C_neg, neg_mul]

end Search

/-- The syndromes of a buffer are those of its error polynomial, as the codeword's are zero (R157). -/
theorem listPoly_syndromes {r c : List Byte} {k : ℕ}
    (hc : ∀ j, 1 ≤ j → j ≤ k → (bufPoly φ c).eval (φ (alphaPow j)) = 0) :
    listPoly φ (syndromes r k)
      = syndromePoly (bufPoly φ r - bufPoly φ c).support (bufPoly φ r - bufPoly φ c).coeff (place φ) k := by
  ext j
  rw [h.listPoly_coeff, syndromePoly_coeff]
  split
  · next hj =>
    have hget : (syndromes r k).getD j 0 = bufEval r (alphaPow (j + 1)) := by simp [syndromes, hj]
    rw [hget, h.map_bufEval, ← h.eval_alphaPow, eval_sub, hc (j + 1) (by omega) (by omega), sub_zero]
  · next hj =>
    have hget : (syndromes r k).getD j 0 = 0 := by simp [syndromes, Nat.not_lt.1 hj]
    rw [hget, h.map_zero]

/-- The search finds the codeword within distance K div 2 of a buffer that is no codeword. -/
theorem rsSearch_finds {r c : List Byte} {d k : ℕ} (hdk : d + k ≤ 255) (hrlen : r.length = d + k)
    (hclen : c.length = d + k) (hc : ∀ j, 1 ≤ j → j ≤ k → (bufPoly φ c).eval (φ (alphaPow j)) = 0)
    (hne : r ≠ c) (hdist : rsDist r c ≤ k / 2) : rsSearch r d k = some c := by
  have hlen := hrlen.trans hclen.symm
  obtain ⟨E, hE⟩ : ∃ E, E = bufPoly φ r - bufPoly φ c := ⟨_, rfl⟩
  obtain ⟨lam, hlamdef⟩ : ∃ lam, errorLocator (syndromes r k) = lam := ⟨_, rfl⟩
  have hplaces : ∀ q ∈ E.support, q < d + k := fun q hq =>
    hclen ▸ lt_of_mem_support_bufPoly_sub φ hlen (hE ▸ hq)
  have hsmall : ∀ q ∈ E.support, q < 255 := fun q hq => (hplaces q hq).trans_le hdk
  have hcard : E.support.card ≤ k / 2 := by rwa [hE, ← h.rsDist_eq_card hlen]
  have hsyns := h.listPoly_syndromes (r := r) hc
  rw [← hE] at hsyns
  have hlam : listPoly φ lam = locator E.support (place φ) := by
    rw [← hlamdef]
    exact h.listPoly_errorLocator hsmall (by omega) (by simp [syndromes]) hsyns
  have hdeg : polyDeg lam = E.support.card := by
    rw [h.polyDeg_eq_natDegree, hlam, locator_natDegree fun q _ => h.place_ne_zero q]
  have hpos : E.support.card ≠ 0 := fun h0 =>
    hne (h.bufPoly_injective hlen (sub_eq_zero.1 (hE ▸ support_eq_empty.1 (Finset.card_eq_zero.1 h0))))
  have hchien : ∀ q ∈ chienSearch lam, q < d + k := fun q hq => hplaces q ((h.mem_chienSearch hsmall hlam q).1 hq)
  rw [rsSearch_of_checks hlamdef (hdeg ▸ hpos) ((h.chienSearch_length hsmall hlam).trans hdeg.symm) (hdeg ▸ hcard)
    hchien]
  refine congrArg some (h.bufPoly_injective ((applyErrors_length _ _ _ _ _).trans hlen) ?_)
  rw [h.bufPoly_applyErrors_chienSearch hsmall (by omega) hsyns hlam hrlen hchien, hE, sub_sub_cancel]

end IsByteField

/-- Every codeword within distance K div 2 is the answer: at once if the buffer is it, else by the search. -/
theorem rsDecode_finds {r data : List Byte} {d k : ℕ} (hdk : d + k ≤ 255) (hrlen : r.length = d + k)
    (hd : data.length = d) (hdist : rsDist r (data ++ rsEncode data k) ≤ k / 2) :
    rsDecode r d k = some (rsDist r (data ++ rsEncode data k), data ++ rsEncode data k) := by
  obtain ⟨F, _, φ, h⟩ := exists_byteField
  have hclen : (data ++ rsEncode data k).length = d + k := by rw [List.length_append, hd, rsEncode_length]
  have hcode := isCodeword_append k hd
  by_cases hr : isCodeword r d k = true
  · obtain ⟨data', hd', rfl⟩ := exists_data_of_isCodeword hrlen hr
    have heq : data' ++ rsEncode data' k = data ++ rsEncode data k :=
      h.eq_of_same_syndromes (k := k) (hrlen.trans hclen.symm) (hclen.le.trans hdk) (by omega) fun j h1 hj => by
        rw [h.codeword_eval h1 hj, h.codeword_eval h1 hj]
    rw [rsDecode_of_isCodeword hr, heq, rsDist_self]
  · have hne : r ≠ data ++ rsEncode data k := fun heq => hr (heq ▸ hcode)
    have hsearch := h.rsSearch_finds hdk hrlen hclen (fun j h1 hj => h.codeword_eval h1 hj data) hne hdist
    simp only [rsDecode, if_neg hr, hsearch, hcode, decide_eq_true hdist, Bool.and_self, if_true]

/-- Settles O40: the search finds every codeword near enough, and what is answered is one. -/
theorem decodeIsBoundedDistanceDecoding : Obligations.DecodeIsBoundedDistanceDecoding := by
  refine fun r d k _ hdk hlen => ⟨fun data hd hdist => rsDecode_finds hdk hlen hd hdist, fun hfar => ?_⟩
  refine Option.eq_none_iff_forall_ne_some.2 fun answer h => ?_
  obtain ⟨⟨data, hd, hc⟩, hdist, hle, -⟩ := rsDecode_sound hlen (count := answer.1) (c := answer.2) h
  have := hfar data hd
  rw [← hc] at this
  omega

theorem rsDist_modify {c : List Byte} {j : ℕ} {e : Byte} (hj : j < c.length) (he : e ≠ 0) :
    rsDist (c.modify j fun b => b ^^^ e) c = 1 := by
  induction c generalizing j with
  | nil => simp at hj
  | cons b c ih =>
    cases j with
    | zero =>
      have hb : b ^^^ e ≠ b := fun heq => he (by simpa using heq)
      rw [List.modify_zero_cons, rsDist, if_neg hb, rsDist_self]
    | succ j => rw [List.modify_succ_cons, rsDist, if_pos rfl, ih (by simpa using hj)]

/-- Settles O41: the changed buffer has distance 1 from the codeword. -/
theorem decodeCorrectsOneWrongByte : Obligations.DecodeCorrectsOneWrongByte := by
  intro data c k j e _ hk hdk hc hj he
  have hlen : c.length = data.length + k := by rw [hc, List.length_append, rsEncode_length]
  have hdist : rsDist (c.modify j fun b => b ^^^ e) c = 1 := rsDist_modify (hlen ▸ hj) he
  have hfinds := rsDecode_finds (r := c.modify j fun b => b ^^^ e) hdk ((List.length_modify _ _ _).trans hlen) rfl
    (by rw [← hc, hdist]; omega)
  rwa [← hc, hdist] at hfinds

end Sys2Proof.Proofs

/-! PROOFS. The commands RS_ENC and RS_DEC (41_reed_solomon R158, R162): what they leave in CW, in RESULT and elsewhere. -/

namespace Sys2Proof.Proofs

open Sys2Proof.Machine

/-! ### CW and RESULT -/

theorem cwBytes_length (s : State) (n : Nat) : (cwBytes s n).length = n := bytesAt_length s cwBase n

theorem cwBytes_setResult (count : Nat) (reject : Bool) (s : State) (n : Nat) :
    cwBytes (setResult count reject s) n = cwBytes s n := rfl

/-- CW after a store of all its first bytes. -/
theorem cwBytes_storeCw_zero {c : List Byte} {n : Nat} (s : State) (hlen : c.length = n) :
    cwBytes (storeCw 0 c s) n = c := by
  subst hlen
  exact bytesAt_storeBytes cwBase c s

/-- CW after a store that continues its first d bytes. -/
theorem cwBytes_storeCw_append {p : List Byte} {d k : Nat} (s : State) (hlen : p.length = k) :
    cwBytes (storeCw d p s) (d + k) = cwBytes s d ++ p := by
  subst hlen
  have hlow : cwBytes (storeCw d p s) d = cwBytes s d :=
    List.map_congr_left fun i hi => by
      have hlt := List.mem_range.1 hi
      rw [byteAt_storeCw, if_neg (by omega)]
  have hsplit : cwBytes (storeCw d p s) (d + p.length)
      = cwBytes (storeCw d p s) d ++ bytesAt (storeCw d p s) (cwBase + d) p.length := by
    simp only [cwBytes, bytesAt, List.range_add, List.map_append, List.map_map, Function.comp_def, Nat.add_assoc]
  rw [hsplit, hlow, storeCw, bytesAt_storeBytes]

/-- RESULT of an accepted command is its count, which fits in COUNT (10_state R46). -/
theorem resultWord_setResult_false {count : Nat} (s : State) (h : count < 256) :
    (resultWord (setResult count false s)).toNat = count := by
  simp [resultWord, bit]
  omega

theorem resultWord_setResult_reject (s : State) : resultWord (setResult 0 true s) = 0x00000100 := by
  simp [resultWord, bit]

theorem rsArgBad_eq_false {d k : Nat} (hd : 1 ≤ d) (hdk : d + k ≤ 255) : rsArgBad d k = false := by
  simp [rsArgBad]; omega

/-! ### RS_ENC (R158) -/

/-- Settles O42: the gate passes, and the effect stores the parity behind the data and zero into RESULT. -/
theorem rsEncWritesTheParity : Obligations.RsEncWritesTheParity := by
  intro s d k hd hdk
  have hparity := rsEncode_length (cwBytes s d) k
  have hout := storeBytes_keeps_outside (cwBase + d) (rsEncode (cwBytes s d) k) s
  rw [hparity] at hout
  refine ⟨rsEncEffect d k s, ?_, cwBytes_storeCw_append s hparity, rfl, hout, rfl⟩
  rw [exec_rsEnc, gated_pass _ (fun h => absurd h Bool.false_ne_true) (rsArgBad_eq_false hd hdk)]

/-! ### RS_DEC (R162) -/

theorem rsDecEffect_of_some {d k count : Nat} {c : List Byte} {s : State}
    (h : rsDecode (cwBytes s (d + k)) d k = some (count, c)) :
    rsDecEffect d k s = setResult count false (storeCw 0 c s) := by
  rw [rsDecEffect, h]

theorem rsDecEffect_of_none {d k : Nat} {s : State} (h : rsDecode (cwBytes s (d + k)) d k = none) :
    rsDecEffect d k s = setResult 0 true s := by
  rw [rsDecEffect, h]

theorem rsDecEffect_frame (d k : Nat) (s : State) :
    rsDecEffect d k s = { s with
      mem := (rsDecEffect d k s).mem
      resultCount := (rsDecEffect d k s).resultCount
      resultReject := (rsDecEffect d k s).resultReject } := by
  rw [rsDecEffect]
  split <;> rfl

/-- Settles O43: the gate passes; an answer of Decode has CW's length and a count that fits in COUNT, and is stored; else
only REJECT is set. -/
theorem rsDecCorrectsInPlaceOrRejects : Obligations.RsDecCorrectsInPlaceOrRejects := by
  intro s d k hd hdk
  refine ⟨rsDecEffect d k s, ?_, fun count c h => ?_, fun h => ?_, rsDecEffect_frame d k s⟩
  · rw [exec_rsDec, gated_pass _ (fun h => absurd h Bool.false_ne_true) (rsArgBad_eq_false hd hdk)]
  · obtain ⟨-, -, hcount, hlen⟩ := rsDecode_sound (cwBytes_length s (d + k)) h
    have hout := storeBytes_keeps_outside cwBase c s
    rw [hlen] at hout
    rw [rsDecEffect_of_some h, cwBytes_setResult]
    exact ⟨cwBytes_storeCw_zero s hlen, resultWord_setResult_false _ (by omega), hout⟩
  · rw [rsDecEffect_of_none h]
    exact ⟨resultWord_setResult_reject s, fun a => rfl⟩

end Sys2Proof.Proofs

/-! PROOFS. The FIR filter (42_fir): the taps of a stream of input samples, and what FIR_RUN leaves in OUT and in the history. -/

namespace Sys2Proof.Proofs

open Sys2Proof.Machine

/-! ### The input samples (20_memory R84) -/

theorem inSamples_length (s : State) (l : Nat) : (inSamples s l).length = l := by simp [inSamples]

theorem inSamples_succ (s : State) (n : Nat) : inSamples s (n + 1) = inSamples s n ++ [inSample s n] := by
  simp only [inSamples, List.range_succ, List.map_append, List.map_singleton]

/-- Samples that continue in another state's IN. -/
theorem inSamples_add {s u : State} {l1 l2 : Nat} (h : ∀ n, n < l2 → inSample u n = inSample s (l1 + n)) :
    inSamples s (l1 + l2) = inSamples s l1 ++ inSamples u l2 := by
  have hu : inSamples u l2 = (List.range l2).map (fun n => inSample s (l1 + n)) :=
    List.map_congr_left fun n hn => h n (List.mem_range.1 hn)
  rw [hu]
  simp only [inSamples, List.range_add, List.map_append, List.map_map, Function.comp_def]

/-! ### The taps of a stream (42_fir R183) -/

theorem streamTap_zero (s : State) (n : Nat) : streamTap s n 0 = (inSample s n).toInt := if_pos (Nat.zero_le n)

/-- One sample later, every tap has moved one place on. -/
theorem streamTap_succ_succ (s : State) (n k : Nat) : streamTap s (n + 1) (k + 1) = streamTap s n k := by
  simp only [streamTap, Nat.add_le_add_iff_right, Nat.add_sub_add_right]

/-- Behind the first sample's tap stands the history before the run. -/
theorem streamTap_zero_succ (s : State) (k : Nat) : streamTap s 0 (k + 1) = (s.session.hist.getD k 0).toInt := by
  simp [streamTap]

/-- The 32 taps with the newest one split off. -/
theorem map_streamTap_eq_cons (s : State) (n : Nat) :
    (List.range 32).map (streamTap s n)
      = (inSample s n).toInt :: (List.range 31).map (fun k => streamTap s n (k + 1)) := by
  rw [List.range_succ_eq_map, List.map_cons, streamTap_zero, List.map_map]
  rfl

section Stream

variable {s : State} (hlen : s.session.hist.length = 31) (num : Numerics) (h : List Rat)

theorem firStream_succ (n : Nat) :
    firStream num h s.session.hist (inSamples s (n + 1))
      = ((firStream num h s.session.hist (inSamples s n)).1
            ++ [(firStep num h (firStream num h s.session.hist (inSamples s n)).2 (inSample s n)).1],
          (firStep num h (firStream num h s.session.hist (inSamples s n)).2 (inSample s n)).2) := by
  rw [inSamples_succ, firStream_append]
  rfl

include hlen

/-- The history of 31 samples, read as the taps behind the first sample. -/
theorem map_toInt_hist : s.session.hist.map BitVec.toInt = (List.range 31).map (fun k => streamTap s 0 (k + 1)) := by
  apply List.ext_getElem
  · simp [hlen]
  · intro k hk _
    rw [List.length_map] at hk
    simp only [List.getElem_map, List.getElem_range, streamTap_zero_succ, List.getD_eq_getElem _ _ hk]

/-- After n samples, the history is the taps behind sample n (R183). -/
theorem map_toInt_firStream_hist (n : Nat) :
    (firStream num h s.session.hist (inSamples s n)).2.map BitVec.toInt
      = (List.range 31).map (fun k => streamTap s n (k + 1)) := by
  induction n with
  | zero => exact map_toInt_hist hlen
  | succ n ih =>
    rw [firStream_succ, firStep, List.map_dropLast, List.map_cons, ih, ← map_streamTap_eq_cons, ← List.map_dropLast,
      List.range_succ, List.dropLast_concat]
    simp only [streamTap_succ_succ]

/-- The taps of fir_step at sample n of the stream. -/
theorem map_toInt_firStream_taps (n : Nat) :
    (inSample s n :: (firStream num h s.session.hist (inSamples s n)).2).map BitVec.toInt
      = (List.range 32).map (streamTap s n) := by
  rw [List.map_cons, map_toInt_firStream_hist hlen, map_streamTap_eq_cons]

/-- The outputs of a stream are the filter values of its taps (R183). -/
theorem firStream_outputs (l : Nat) :
    (firStream num h s.session.hist (inSamples s l)).1
      = (List.range l).map (fun n => firValue num h ((List.range 32).map (streamTap s n))) := by
  induction l with
  | zero => rfl
  | succ l ih =>
    rw [firStream_succ, ih, firStep, map_toInt_firStream_taps hlen, List.range_succ (n := l), List.map_append,
      List.map_singleton]

theorem firStream_hist_length (l : Nat) : (firStream num h s.session.hist (inSamples s l)).2.length = 31 :=
  (firStream_lengths num h s.session.hist (inSamples s l)).2.trans hlen

/-- After a stream of l samples, the history is the taps at its last sample (R183, R186). -/
theorem firStream_hist_getD {l k : Nat} (hl : 1 ≤ l) (hk : k < 31) :
    ((firStream num h s.session.hist (inSamples s l)).2.getD k 0).toInt = streamTap s (l - 1) k := by
  obtain ⟨n, rfl⟩ := Nat.exists_eq_add_of_le' hl
  have hlt : k < (firStream num h s.session.hist (inSamples s (n + 1))).2.length := by
    rw [firStream_hist_length hlen]; exact hk
  have hget := congrArg (fun l : List Int => l[k]?) (map_toInt_firStream_hist hlen num h (n + 1))
  simpa only [List.getElem?_map, List.getElem?_eq_getElem hlt, List.getElem?_range hk, Option.map_some, Option.some.injEq,
    List.getD_eq_getElem _ _ hlt, streamTap_succ_succ, Nat.add_sub_cancel] using hget

end Stream

/-! ### FIR_RUN (R186, R188) -/

theorem firArgBad_eq_false {l : Nat} (h1 : 1 ≤ l) (h2 : l ≤ 8192) : firArgBad l = false :=
  Bool.or_eq_false_iff.2 ⟨decide_eq_false (by omega), decide_eq_false (by unfold inCap; omega)⟩

theorem exec_firRun_ready {s : State} {l : Nat} (hr : s.ready = true) (h1 : 1 ≤ l) (h2 : l ≤ 8192) :
    exec (.firRun l) s = .next (firRunEffect params l s) := by
  rw [exec_firRun, gated_pass _ (fun _ => hr) (firArgBad_eq_false h1 h2)]

theorem firRunEffect_hist (p : Params) (l : Nat) (s : State) :
    (firRunEffect p l s).session.hist = (firStream p.num s.h s.session.hist (inSamples s l)).2 := rfl

/-- OUT[n] is the rounded output n of the stream (R186). -/
theorem outSample_firRunEffect (p : Params) {l n : Nat} (s : State) (hn : n < l) :
    outSample (firRunEffect p l s) n
      = roundSample ((firStream p.num s.h s.session.hist (inSamples s l)).1.getD n 0) := by
  have hlen : n < (firStream p.num s.h s.session.hist (inSamples s l)).1.length := by
    rw [(firStream_lengths _ _ _ _).1, inSamples_length]; exact hn
  rw [firRunEffect, outSample_storeOut _ _ _ (by rw [List.length_map]; exact hlen),
    List.getD_eq_getElem _ _ (by rw [List.length_map]; exact hlen), List.getElem_map, List.getD_eq_getElem _ _ hlen]

theorem firRunEffect_keeps_outside (p : Params) (l : Nat) (s : State) :
    KeepsBytesOutside outBase (2 * l) s (firRunEffect p l s) := by
  have hout := storeOut_keeps_outside ((firStream p.num s.h s.session.hist (inSamples s l)).1.map roundSample)
    { s with session := { s.session with hist := (firRunEffect p l s).session.hist } }
  rw [List.length_map, (firStream_lengths _ _ _ _).1, inSamples_length] at hout
  exact hout

/-- Settles O16: the gate passes, and the outputs and the history of the stream are those of its taps. -/
theorem firRunFiltersTheInput : Obligations.FirRunFiltersTheInput := by
  intro s l hr h1 h2 hlen
  refine ⟨firRunEffect params l s, exec_firRun_ready hr h1 h2, fun n hn => ?_,
    firStream_hist_length hlen params.num s.h l, fun k hk => firStream_hist_getD hlen params.num s.h h1 hk,
    firRunEffect_keeps_outside params l s, rfl⟩
  rw [outSample_firRunEffect params s hn, roundSample_toInt, firStream_outputs hlen,
    List.getD_eq_getElem _ _ (by simpa using hn), List.getElem_map, List.getElem_range]

/-- Settles O17: the input of the one run is that of the two in order, and the second run starts from the history that
the first one left. -/
theorem firRunsOverPiecesAgree : Obligations.FirRunsOverPiecesAgree := by
  intro s u t t1 t2 l1 l2 hs hu h1 h2 h12 ht ht1 hh hhist hin ht2
  rw [exec_firRun_ready hs (by omega) h12] at ht
  rw [exec_firRun_ready hs h1 (by omega)] at ht1
  rw [exec_firRun_ready hu h2 (by omega)] at ht2
  cases ht; cases ht1; cases ht2
  have hstream := firStream_append params.num s.h s.session.hist (inSamples s l1) (inSamples u l2)
  rw [← inSamples_add hin, ← firRunEffect_hist, ← hhist, ← hh] at hstream
  have hlen : (firStream params.num u.h s.session.hist (inSamples s l1)).1.length = l1 := by
    rw [(firStream_lengths _ _ _ _).1, inSamples_length]
  refine ⟨fun n hn => ?_, fun n hn => ?_, ?_⟩
  · rw [outSample_firRunEffect params s hn, outSample_firRunEffect params s (Nat.lt_add_right l2 hn), ← hh, hstream,
      List.getD_append _ _ _ _ (by omega)]
  · rw [outSample_firRunEffect params u hn, outSample_firRunEffect params s (Nat.add_lt_add_left hn l1), ← hh, hstream,
      List.getD_append_right _ _ _ _ (by omega), hlen, Nat.add_sub_cancel_left]
  · rw [firRunEffect_hist, firRunEffect_hist, ← hh, hstream]

end Sys2Proof.Proofs

/-! PROOFS. The ideal values of 00_scope R13: the filter coefficients are symmetric about 15.5 (42_fir R181, R182, R185), and
a burst starts at 0 and stays within its amplitude (44_synth R231). -/

namespace Sys2Proof.Proofs

open Sys2Proof.Machine

/-! ### The true cosine and sine of a turn -/

/-- The cosine turns back: an angle short of a whole turn has the cosine of what is missing. -/
theorem idealTrig_cosTurn_one_sub (x : Rat) : idealTrig.cosTurn (1 - x) = idealTrig.cosTurn x := by
  have h : 2 * Real.pi * ((1 - x : Rat) : ℝ) = 2 * Real.pi - 2 * Real.pi * (x : ℝ) := by push_cast; ring
  simp only [idealTrig]
  rw [h, Real.cos_two_pi_sub]

theorem idealTrig_sinTurn_neg (x : Rat) : idealTrig.sinTurn (-x) = -idealTrig.sinTurn x := by
  simp [idealTrig]

theorem idealTrig_sinTurn_zero : idealTrig.sinTurn 0 = 0 := by simp [idealTrig]

theorem abs_idealTrig_sinTurn_le (x : Rat) : |idealTrig.sinTurn x| ≤ 1 := Real.abs_sin_le_one _

/-! ### The filter coefficients (R181) -/

/-- A window of two points or more is symmetric. -/
theorem hamming_symm {len n : Nat} (hlen : 2 ≤ len) (hn : n ≤ len - 1) :
    hamming idealTrig len (len - 1 - n) = hamming idealTrig len n := by
  have hne : (len : Rat) - 1 ≠ 0 := by
    have : (2 : Rat) ≤ len := by exact_mod_cast hlen
    linarith
  have hturn : ((len - 1 - n : Nat) : Rat) / ((len : Rat) - 1) = 1 - (n : Rat) / ((len : Rat) - 1) := by
    rw [Nat.cast_sub hn, Nat.cast_sub (by omega), sub_div, Nat.cast_one, div_self hne]
  simp only [hamming, hturn, idealTrig_cosTurn_one_sub]

/-- sinc is even: it is a quotient of odd functions. -/
theorem sinc_neg (x : Rat) : sinc idealTrig (-x) = sinc idealTrig x := by
  have hsin : idealTrig.sinTurn (-x / 2) = -idealTrig.sinTurn (x / 2) := by rw [neg_div, idealTrig_sinTurn_neg]
  simp only [sinc, neg_eq_zero, hsin, Rat.cast_neg, mul_neg, neg_div_neg_eq]

/-- The place of a coefficient's mirror image, seen from the middle. -/
theorem mirrored_offset {n : Nat} (hn : n ≤ 31) : ((31 - n : Nat) : Rat) - 31 / 2 = -((n : Rat) - 31 / 2) := by
  rw [Nat.cast_sub hn]
  push_cast
  ring

theorem lowpassIdeal_symm (fc fs : Nat) {n : Nat} (hn : n ≤ 31) :
    lowpassIdeal idealTrig fc fs (31 - n) = lowpassIdeal idealTrig fc fs n := by
  simp only [lowpassIdeal, mirrored_offset hn, mul_neg, sinc_neg]

/-- h_n = h_(31−n) (R182). -/
theorem idealCoef_symm (ftype : FilterType) (fc fs : Nat) {n : Nat} (hn : n ≤ 31) :
    idealCoef ftype fc fs (31 - n) = idealCoef ftype fc fs n := by
  have hwin : hamming idealTrig 32 (31 - n) = hamming idealTrig 32 n := hamming_symm (by norm_num) hn
  cases ftype with
  | lowpass => simp only [idealCoef, firDesign, hwin, lowpassIdeal_symm fc fs hn]
  | highpass => simp only [idealCoef, firDesign, hwin, lowpassIdeal_symm fc fs hn, mirrored_offset hn, sinc_neg]

/-- A symmetric sequence of even length has alternating sum 0: mirrored places have opposite signs. -/
theorem alternating_sum_eq_zero {f : Nat → ℝ} {m : Nat} (hf : ∀ n, n ≤ 2 * m + 1 → f (2 * m + 1 - n) = f n) :
    ∑ n ∈ Finset.range (2 * m + 2), (-1 : ℝ) ^ n * f n = 0 := by
  have hmirror : ∀ n ∈ Finset.range (2 * m + 2),
      (-1 : ℝ) ^ (2 * m + 2 - 1 - n) * f (2 * m + 2 - 1 - n) = -((-1 : ℝ) ^ n * f n) := by
    intro n hn
    have hle : n ≤ 2 * m + 1 := Nat.lt_succ_iff.1 (Finset.mem_range.1 hn)
    have hodd : Odd (2 * m + 1 - n + n) := by rw [Nat.sub_add_cancel hle]; exact odd_two_mul_add_one m
    have hsign : (-1 : ℝ) ^ (2 * m + 1 - n) = -(-1) ^ n := by
      have hprod : (-1 : ℝ) ^ (2 * m + 1 - n) * (-1) ^ n = -1 := by rw [← pow_add, hodd.neg_one_pow]
      rcases neg_one_pow_eq_or ℝ n with hn1 | hn1 <;> rw [hn1] at hprod ⊢ <;> linarith
    rw [show 2 * m + 2 - 1 - n = 2 * m + 1 - n from rfl, hf n hle, hsign, neg_mul]
  have hsum := Finset.sum_range_reflect (fun n => (-1 : ℝ) ^ n * f n) (2 * m + 2)
  rw [Finset.sum_congr rfl hmirror, Finset.sum_neg_distrib] at hsum
  linarith

/-! ### The burst (R231) -/

theorem abs_hamming_le_one (len n : Nat) : |hamming idealTrig len n| ≤ 1 := by
  have hcos := abs_le.1 (Real.abs_cos_le_one (2 * Real.pi * (((n : Rat) / ((len : Rat) - 1) : Rat) : ℝ)))
  obtain ⟨hlo, hhi⟩ := hcos
  simp only [hamming, idealTrig, abs_le]
  push_cast at hlo hhi ⊢
  constructor <;> linarith

theorem idealTone_zero (amp f fs len : Nat) : idealTone amp f fs len 0 = 0 := by
  simp only [idealTone, toneFormula, Nat.cast_zero, mul_zero, zero_div, idealTrig_sinTurn_zero]

theorem abs_idealTone_le (amp f fs len n : Nat) : |idealTone amp f fs len n| ≤ amp := by
  simp only [idealTone, toneFormula, abs_mul, Nat.abs_cast]
  calc (amp : ℝ) * |hamming idealTrig len n| * |idealTrig.sinTurn ((f : Rat) * n / fs)|
      ≤ amp * 1 * 1 := by
        gcongr
        · exact abs_hamming_le_one len n
        · exact abs_idealTrig_sinTurn_le _
    _ = amp := by ring

/-- Settles O18: window and sinc are symmetric about the middle, so the coefficients cancel in mirrored pairs; and the
factors of a burst value beside the amplitude are at most 1. -/
theorem idealFilterIsSymmetricAndIdealToneBounded : Obligations.IdealFilterIsSymmetricAndIdealToneBounded := by
  refine ⟨fun ftype fc fs => ⟨fun n hn => (idealCoef_symm ftype fc fs hn).symm, ?_⟩,
    fun amp f fs len n => ⟨idealTone_zero amp f fs len, abs_idealTone_le amp f fs len n⟩⟩
  exact alternating_sum_eq_zero (m := 15) fun n hn => idealCoef_symm ftype fc fs hn

end Sys2Proof.Proofs

/-! PROOFS. What a slot step does to PAY and to IRQ_STATUS (45_decoder R252, R260), and so its whole frame; and the command
CHUNK (45_decoder R266). -/

namespace Sys2Proof.Proofs

open Sys2Proof.Machine

/-! ### Appending to PAY and raising FRAME_OK and DONE -/

/-- IRQ_STATUS moves by FRAME_OK and DONE being set, and PAY by bytes stored between the old PAY_LEN and the new one. A
PAY_LEN beyond PAY, which no run reaches (log 14), may wrap. -/
structure AppendsPay (s t : State) : Prop where
  irqOther : t.irqStatus &&& 0b1001 = s.irqStatus &&& 0b1001
  irqKept : s.irqStatus &&& t.irqStatus = s.irqStatus
  payLen : s.session.payLen.toNat ≤ t.session.payLen.toNat ∨ 256 ≤ s.session.payLen.toNat
  bytes : KeepsBytesOutside (payBase + s.session.payLen.toNat)
    (t.session.payLen.toNat - s.session.payLen.toNat) s t

section Pay

variable {s t u : State}

theorem AppendsPay.of_same (hi : t.irqStatus = s.irqStatus) (hp : t.session.payLen = s.session.payLen)
    (hm : t.mem = s.mem) (he : t.epoch = s.epoch) : AppendsPay s t where
  irqOther := by rw [hi]
  irqKept := by rw [hi, BitVec.and_self]
  payLen := .inl (by rw [hp])
  bytes a _ := byteAt_congr hm he a

/-- Two pieces in order, one of which keeps PAY_LEN, or the first of which appends within PAY. -/
theorem AppendsPay.trans (h : AppendsPay s t) (k : AppendsPay t u)
    (hlen : t.session.payLen = s.session.payLen ∨ u.session.payLen = t.session.payLen
      ∨ (s.session.payLen.toNat ≤ t.session.payLen.toNat ∧ t.session.payLen.toNat < 256)) : AppendsPay s u where
  irqOther := k.irqOther.trans h.irqOther
  irqKept := by rw [← h.irqKept, BitVec.and_assoc, k.irqKept]
  payLen := by
    have hst := h.payLen
    have htu := k.payLen
    rcases hlen with hlen | hlen | hlen
    · rwa [hlen] at htu
    · rwa [hlen]
    · omega
  bytes a ha := by
    have htu := k.payLen
    rcases hlen with hlen | hlen | hlen
    · exact (k.bytes a (by rw [hlen]; exact ha)).trans (h.bytes a (by rw [hlen]; omega))
    · exact (k.bytes a (by rw [hlen]; omega)).trans (h.bytes a (by rw [← hlen]; exact ha))
    · exact (k.bytes a (by omega)).trans (h.bytes a (by omega))

/-- A change of the session that keeps PAY_LEN goes before. -/
theorem AppendsPay.of_session {x : Session} (h : AppendsPay { s with session := x } t)
    (hp : x.payLen = s.session.payLen) : AppendsPay s t :=
  AppendsPay.trans (t := { s with session := x }) (.of_same rfl hp rfl rfl) h (.inl hp)

/-- Raising interrupts other than CMD_DONE and ERR. -/
theorem AppendsPay.of_raised (m : BitVec 4) (hm : m &&& 0b1001 = 0) :
    AppendsPay s { s with irqStatus := s.irqStatus ||| m } where
  irqOther := (by decide : ∀ x y : BitVec 4, y &&& 0b1001 = 0 → (x ||| y) &&& 0b1001 = x &&& 0b1001) s.irqStatus m hm
  irqKept := (by decide : ∀ x y : BitVec 4, x &&& (x ||| y) = x) s.irqStatus m
  payLen := .inl le_rfl
  bytes _ _ := rfl

theorem setFrameOk_appendsPay (s : State) : AppendsPay s (setFrameOk s) := .of_raised 0b0010 rfl

theorem setDoneIrq_appendsPay (s : State) : AppendsPay s (setDoneIrq s) := .of_raised 0b0100 rfl

theorem byteAt_storePay_of_ne {i : Nat} {b : Byte} {a : Nat} (h : i < 256 → a ≠ payBase + i) :
    byteAt (storePay i b s) a = byteAt s a := by
  by_cases hi : i < 256
  · rw [byteAt_storePay i b s a hi, if_neg (h hi)]
  · rw [storePay, if_neg hi]

/-- Storing one byte at PAY_LEN and counting it (45_decoder R260), whatever DSTATE becomes. -/
theorem AppendsPay.store {x : Session} (b : Byte) (hx : x.payLen = s.session.payLen + 1) :
    AppendsPay s { storePay s.session.payLen.toNat b s with session := x } := by
  have hsucc : s.session.payLen.toNat < 256 → (s.session.payLen + 1).toNat = s.session.payLen.toNat + 1 := by
    intro h; bv_omega
  constructor
  case irqOther => simp only [storePay_irqStatus]
  case irqKept => simp only [storePay_irqStatus, BitVec.and_self]
  case payLen => simp only [hx]; omega
  case bytes =>
    intro a ha
    simp only [hx] at ha
    exact byteAt_storePay_of_ne fun hi => by have := hsucc hi; omega

/-- The payload loop of accept (R260). -/
theorem appendPayload_appendsPay (bs : List Byte) (s : State) : AppendsPay s (appendPayload bs s) := by
  induction bs generalizing s with
  | nil => exact .of_same rfl rfl rfl rfl
  | cons b bs ih =>
    unfold appendPayload
    split
    · exact (AppendsPay.store 0 rfl).trans (setDoneIrq_appendsPay _) (.inr (.inl rfl))
    · split
      · rename_i hroom
        have hsucc := payLen_succ_toNat (p := s.session.payLen) (m := s.latched.maxstr) (by omega)
        have hmax := s.latched.maxstr.isLt
        refine (AppendsPay.store b rfl).trans (ih _) (.inr (.inr ?_))
        simp only [hsucc]
        omega
      · exact (ih _).of_session rfl

theorem accept_appendsPay (fr : List Byte) (s : State) : AppendsPay s (accept fr s) := by
  have hcounted := setFrameOk_appendsPay { s with session := { s.session with frameCnt := s.session.frameCnt + 1 } }
  exact (hcounted.of_session rfl).trans (appendPayload_appendsPay _ _) (.inl rfl)

theorem frameAttempt_appendsPay (c : Cfg) (s : State) : AppendsPay s (frameAttempt c s) := by
  unfold frameAttempt
  simp only
  split
  · exact .of_same rfl rfl rfl rfl
  · exact (accept_appendsPay _ _).of_session rfl

theorem seekSync_appendsPay (c : Cfg) (s : State) : AppendsPay s (seekSync c s) := by
  unfold seekSync
  split <;> exact .of_same rfl rfl rfl rfl

theorem decoderStep_appendsPay (c : Cfg) (s : State) : AppendsPay s (decoderStep c s) := by
  unfold decoderStep
  split
  · exact .of_same rfl rfl rfl rfl
  · exact (seekSync_appendsPay c _).of_session rfl
  · exact seekSync_appendsPay c s
  · split
    · exact .of_same rfl rfl rfl rfl
    · simp only
      split
      · exact (frameAttempt_appendsPay c _).of_session rfl
      · exact .of_same rfl rfl rfl rfl

/-! ### The frame of a slot step (43_spectral R210, R211, 45_decoder R266, R267) -/

theorem decoderStep_slotFrame (c : Cfg) (s : State) : SlotFrame s (decoderStep c s) :=
  { decoderStep_appendsPay c s, decoderStep_frame c s with }

/-- A change of the session that keeps PAY_LEN is inside the frame. -/
theorem slotFrame_of_session {x : Session} (h : SlotFrame { s with session := x } t)
    (hp : x.payLen = s.session.payLen) : SlotFrame s t where
  host := { h.host with }
  errors := { h.errors with }
  result := { h.result with }
  latch := { h.latch with }
  irqOther := h.irqOther
  irqKept := h.irqKept
  bytes := by rw [← hp]; exact h.bytes

end Pay

theorem slotStep_slotFrame (c : Cfg) (rp rl : Record) (s : State) : SlotFrame s (slotStep c rp rl s) :=
  slotFrame_of_session (decoderStep_slotFrame c (pushSlot rp rl s)) rfl

/-- The decoder step leaves alone what the slot push wrote. -/
theorem slotStep_slotPushed (c : Cfg) {rp : Record} (rl : Record) (s : State) (h : rp.length ≤ 2) :
    SlotPushed rp rl s (slotStep c rp rl s) := by
  have hpush := pushSlot_pushed rp rl s h
  have hframe := slotStep_frame c rp rl s
  exact {
    ring := hframe.ring.trans hpush.ring
    lring := hframe.lring.trans hpush.lring
    chunkCnt := hframe.chunkCnt.trans hpush.chunkCnt
    bin0 := hframe.candBin0.trans hpush.bin0
    bin1 := hframe.candBin1.trans hpush.bin1
    cnt := hframe.candCnt.trans hpush.cnt
    lcnt := hframe.lagCnt.trans hpush.lcnt }

/-- What the spectral engine and the slot step leave behind on one chunk of values: the new window, the slot of its records,
and the frame (43_spectral R202, R207, R210). -/
theorem analyzeValues_slot (p : Params) (v : List Rat) (s : State) :
    (analyzeValues p v s).session.wb = pushWindow s.session.wb v
      ∧ SlotPushed (payloadRecord p s.latched (pushWindow s.session.wb v))
          (lagRecord p s.latched (pushWindow s.session.wb v)) s (analyzeValues p v s)
      ∧ SlotFrame s (analyzeValues p v s) := by
  refine ⟨(slotStep_frame p.cfg _ _ _).wb, ?_, slotFrame_of_session (slotStep_slotFrame p.cfg _ _ _) rfl⟩
  exact { slotStep_slotPushed p.cfg (lagRecord p s.latched (pushWindow s.session.wb v))
    { s with session := { s.session with wb := pushWindow s.session.wb v } } (payloadRecord_length p s.latched _) with }

/-! ### CHUNK (R266) -/

/-- A chunk of a valid configuration has samples (R6). -/
theorem chunkLen_pos {c : Cfg} (hc : cfgValid c = true) (b : Band) : 1 ≤ chunkLen c b := by
  have h := bandValid_of_cfgValid hc b
  simp only [bandValid, Bool.and_eq_true] at h
  obtain ⟨⟨⟨⟨⟨⟨⟨⟨hsize, -⟩, -⟩, -⟩, -⟩, -⟩, -⟩, -⟩, -⟩ := h
  have hmem := List.contains_iff_mem.1 hsize
  have hlarge : ∀ n ∈ [64, 128, 256, 512, 1024, 2048, 4096, 8192, 16384, 32768, 65536], 1 ≤ n / 8 := by decide
  exact hlarge _ hmem

theorem exec_chunk_ready {s : State} (hr : s.ready = true) : exec .chunk s = .next (chunkEffect params s) := by
  rw [exec_chunk, gated_pass _ (fun _ => hr) rfl]

/-- CHUNK hands the unrounded outputs of its stream to the spectral engine, and leaves the stream's history (42_fir R183,
R188). -/
theorem chunkEffect_stream {s : State} (hlen : s.session.hist.length = 31) {v : List Rat}
    (hv : v = (List.range (chunkLen params.cfg s.latched.band)).map
      (fun n => firValue params.num s.h ((List.range 32).map (streamTap s n)))) :
    ∃ hist : List Half, hist.length = 31
      ∧ (∀ k, k < 31 → (hist.getD k 0).toInt = streamTap s (chunkLen params.cfg s.latched.band - 1) k)
      ∧ chunkEffect params s = analyzeValues params v { s with session := { s.session with hist := hist } } := by
  refine ⟨_, firStream_hist_length hlen params.num s.h _,
    fun k hk => firStream_hist_getD hlen params.num s.h (chunkLen_pos cfg_valid s.latched.band) hk, ?_⟩
  rw [hv, ← firStream_outputs hlen]
  rfl

/-- Settles O26: the gate passes, and the stream's outputs make one slot step over the state with the stream's history. -/
theorem chunkFiltersThenMakesOneSlotStep : Obligations.ChunkFiltersThenMakesOneSlotStep := by
  intro s v wb hr hlen hv hwb
  obtain ⟨hist, hhist, htaps, heffect⟩ := chunkEffect_stream hlen hv
  obtain ⟨hwindow, hpushed, hframe⟩ := analyzeValues_slot params v { s with session := { s.session with hist := hist } }
  rw [← heffect] at hwindow hpushed hframe
  subst hwb
  exact ⟨hist, chunkEffect params s, hhist, htaps, exec_chunk_ready hr, heffect, hwindow, { hpushed with },
    slotFrame_of_session hframe rfl⟩

end Sys2Proof.Proofs

/-! PROOFS. The regions and the window of the spectral engine (43_spectral R200, R202). -/

namespace Sys2Proof.Proofs

open Sys2Proof.Machine

/-! ### The payload region (R200) -/

/-- A frequency below half the rate has its bin within 0..FFT/2 (R17). -/
theorem binOfFreq_le_half {fft r f : Nat} (hf : 2 * f < r) : binOfFreq fft r f ≤ fft / 2 := by
  have hscaled : 2 * f * fft + r < 2 * r * (fft / 2 + 1) := by
    rcases Nat.eq_zero_or_pos fft with rfl | hpos
    · omega
    · calc
        2 * f * fft + r < r * fft + r := Nat.add_lt_add_right (Nat.mul_lt_mul_of_pos_right hf hpos) r
        _ = r * (fft + 1) := rfl
        _ ≤ r * (2 * (fft / 2 + 1)) := Nat.mul_le_mul_left r (by omega)
        _ = 2 * r * (fft / 2 + 1) := by rw [← Nat.mul_assoc, Nat.mul_comm r 2]
  exact Nat.lt_succ_iff.1 (Nat.div_lt_of_lt_mul hscaled)

/-- The 16 tones of a valid band lie below half its rate (R6). -/
theorem two_mul_freqOf_lt_rate {c : Cfg} (hc : cfgValid c = true) (b : Band) {s : Nat} (hs : s < 16) :
    2 * freqOf c b s < rate b := by
  have h := bandValid_of_cfgValid hc b
  simp only [bandValid, Bool.and_eq_true, List.all_eq_true, decide_eq_true_eq] at h
  obtain ⟨⟨⟨⟨⟨⟨-, hlen⟩, htones⟩, -⟩, -⟩, -⟩, -⟩ := h
  have hlt : s < (bandCfg c b).freq.length := hlen ▸ hs
  rw [freqOf, List.getD_eq_getElem _ _ hlt]
  exact (htones _ (List.getElem_mem hlt)).2

theorem symbolBin_le_half {c : Cfg} (hc : cfgValid c = true) (b : Band) {s : Nat} (hs : s < 16) :
    symbolBin c b s ≤ fftSize c b / 2 := binOfFreq_le_half (two_mul_freqOf_lt_rate hc b hs)

theorem symbolBin_mono {c : Cfg} (hc : cfgValid c = true) (b : Band) {s t : Nat} (hst : s ≤ t) (ht : t < 16) :
    symbolBin c b s ≤ symbolBin c b t := by
  rcases hst.lt_or_eq with hlt | rfl
  · exact (symbolBin_lt hc b hlt ht).le
  · exact le_rfl

/-- Settles O21: the bins rise with the symbol, so those of the symbols 0 and 15 bound the others. -/
theorem payloadRegionCoversEveryTone : Obligations.PayloadRegionCoversEveryTone := by
  intro c b s hc hs
  have hlow : symbolBin c b 0 ≤ symbolBin c b s := symbolBin_mono hc b (Nat.zero_le s) hs
  have hhigh : symbolBin c b s ≤ symbolBin c b 15 := symbolBin_mono hc b (by omega) (by omega)
  exact ⟨Nat.sub_le_sub_right hlow _, symbolBin_le_half hc b hs,
    min_le_min_left _ (Nat.add_le_add_right hhigh _), Nat.min_le_left _ _⟩

/-! ### The window (R202) -/

/-- The entries that stay move down by the length of the chunk. -/
theorem getD_pushWindow_shifted {wb v : List Rat} {i : Nat} (hi : i < wb.length - v.length) :
    (pushWindow wb v).getD i 0 = wb.getD (i + v.length) 0 := by
  rw [pushWindow, List.getD_eq_getElem?_getD, List.getElem?_drop, Nat.add_comm, ← List.getD_eq_getElem?_getD,
    List.getD_append _ _ _ _ (by omega)]

/-- The chunk stands last. -/
theorem getD_pushWindow_appended {wb v : List Rat} (hv : v.length ≤ wb.length) (i : Nat) :
    (pushWindow wb v).getD (wb.length - v.length + i) 0 = v.getD i 0 := by
  have hplace : v.length + (wb.length - v.length + i) = wb.length + i := by omega
  rw [pushWindow, List.getD_eq_getElem?_getD, List.getElem?_drop, hplace, ← List.getD_eq_getElem?_getD,
    List.getD_append_right _ _ _ _ (by omega), Nat.add_sub_cancel_left]

theorem pushWindow_append (wb v w : List Rat) : pushWindow (pushWindow wb v) w = pushWindow wb (v ++ w) := by
  have hle : v.length ≤ (wb ++ v).length := by simp
  rw [pushWindow, pushWindow, pushWindow, ← List.drop_append_of_le_length hle, List.drop_drop, List.append_assoc,
    List.length_append]

/-- Pushing chunks in order is one push of the whole. -/
theorem foldl_pushWindow (vs : List (List Rat)) (wb : List Rat) : vs.foldl pushWindow wb = pushWindow wb vs.flatten := by
  induction vs generalizing wb with
  | nil => simp [pushWindow]
  | cons v vs ih => rw [List.foldl_cons, ih, pushWindow_append, List.flatten_cons]

theorem pushWindow_of_length_eq {wb v : List Rat} (h : v.length = wb.length) : pushWindow wb v = v :=
  List.drop_left' h.symm

/-- Settles O22: eight pushes are one push of as many samples as the window holds. -/
theorem eightPushesReplaceTheWindow : Obligations.EightPushesReplaceTheWindow := by
  refine ⟨fun wb v i hv => ⟨pushWindow_length wb v, getD_pushWindow_shifted, fun _ => getD_pushWindow_appended hv i⟩, ?_⟩
  intro wb vs n hwb hvs hn
  have hlen : vs.flatten.length = wb.length := by
    rw [List.length_flatten, List.map_congr_left hn, List.map_const', List.sum_replicate, hvs, hwb, smul_eq_mul]
  rw [foldl_pushWindow, pushWindow_of_length_eq hlen]

end Sys2Proof.Proofs

/-! PROOFS. The selection of candidates (43_spectral R204 to R207): the bins of a region in R204's order, so that the first
one with a property is the strongest one with it, and the records made of them. -/

namespace Sys2Proof.Proofs

open Sys2Proof.Machine

/-! ### The order of the bins (R204) -/

theorem stronger_iff {a b : Nat × Rat} : stronger a b = true ↔ b.2 < a.2 ∨ (a.2 = b.2 ∧ a.1 < b.1) := by
  simp only [stronger, Bool.or_eq_true, Bool.and_eq_true, decide_eq_true_eq]

theorem not_stronger_self (a : Nat × Rat) : ¬stronger a a = true := by simp [stronger_iff]

theorem stronger_trans {a b c : Nat × Rat} (hab : stronger a b = true) (hbc : stronger b c = true) :
    stronger a c = true := by
  rw [stronger_iff] at hab hbc ⊢
  rcases hab with hab | ⟨hab, hab'⟩
  · exact .inl (hbc.elim (fun h => h.trans hab) fun h => h.1 ▸ hab)
  · exact hbc.imp (fun h => hab ▸ h) fun h => ⟨hab.trans h.1, hab'.trans h.2⟩

theorem insertBin_perm (a : Nat × Rat) (l : List (Nat × Rat)) : (insertBin a l).Perm (a :: l) := by
  induction l with
  | nil => exact .refl _
  | cons b bs ih =>
    unfold insertBin
    split
    · exact .refl _
    · exact (ih.cons b).trans (.swap a b bs)

theorem sortBins_perm (l : List (Nat × Rat)) : (sortBins l).Perm l := by
  induction l with
  | nil => exact .refl _
  | cons a l ih => exact (insertBin_perm a _).trans (ih.cons a)

/-- No later entry is stronger than an earlier one. -/
def InOrder (l : List (Nat × Rat)) : Prop := l.Pairwise (fun a b => ¬stronger b a = true)

theorem insertBin_inOrder (a : Nat × Rat) {l : List (Nat × Rat)} (h : InOrder l) : InOrder (insertBin a l) := by
  induction l with
  | nil => exact List.pairwise_singleton _ _
  | cons b bs ih =>
    obtain ⟨hb, hbs⟩ := List.pairwise_cons.1 h
    unfold insertBin
    split
    · rename_i hab
      have hrest : ∀ y ∈ b :: bs, ¬stronger y b = true := List.forall_mem_cons.2 ⟨not_stronger_self b, hb⟩
      exact List.pairwise_cons.2 ⟨fun y hy hya => hrest y hy (stronger_trans hya hab), h⟩
    · rename_i hab
      have hrest : ∀ y ∈ a :: bs, ¬stronger y b = true := List.forall_mem_cons.2 ⟨hab, hb⟩
      exact List.pairwise_cons.2 ⟨fun y hy => hrest y ((insertBin_perm a bs).mem_iff.1 hy), ih hbs⟩

theorem sortBins_inOrder (l : List (Nat × Rat)) : InOrder (sortBins l) := by
  induction l with
  | nil => exact List.Pairwise.nil
  | cons a l ih => exact insertBin_inOrder a ih

/-- In a list in R204's order, the first entry with a property is the one that is stronger than all others with it. -/
theorem InOrder.find?_eq_some {l : List (Nat × Rat)} (h : InOrder l) {q : Nat × Rat → Bool} {x : Nat × Rat} (hx : x ∈ l)
    (hqx : q x = true) (hmax : ∀ y ∈ l, q y = true → y ≠ x → stronger x y = true) : l.find? q = some x := by
  cases hfind : l.find? q with
  | none => exact absurd hqx (List.find?_eq_none.1 hfind x hx)
  | some y =>
    obtain ⟨hqy, before, after, rfl, hbefore⟩ := List.find?_eq_some_iff_append.1 hfind
    by_contra hne
    have hyx : y ≠ x := fun hyx => hne (congrArg some hyx)
    have hafter : ∀ z ∈ after, ¬stronger z y = true := (List.pairwise_cons.1 (List.pairwise_append.1 h).2.1).1
    rcases List.mem_append.1 hx with hx | hx
    · have hnot := hbefore x hx
      simp [hqx] at hnot
    · rcases List.mem_cons.1 hx with rfl | hx
      · exact hyx rfl
      · exact hafter x hx (hmax y (by simp) hqy hyx)

/-! ### The bins of a region -/

theorem mem_regionPowers {power : Nat → Rat} {lo hi k : Nat} {pk : Rat} :
    (k, pk) ∈ regionPowers power lo hi ↔ (lo ≤ k ∧ k ≤ hi) ∧ pk = power k := by
  simp only [regionPowers, List.mem_map, List.mem_range, Prod.mk.injEq]
  constructor
  · rintro ⟨i, hlt, rfl, rfl⟩
    exact ⟨by omega, rfl⟩
  · rintro ⟨hk, rfl⟩
    have hplace : lo + (k - lo) = k := by omega
    exact ⟨k - lo, by omega, hplace, by rw [hplace]⟩

theorem mem_sortBins_regionPowers {power : Nat → Rat} {lo hi k : Nat} {pk : Rat} :
    (k, pk) ∈ sortBins (regionPowers power lo hi) ↔ (lo ≤ k ∧ k ≤ hi) ∧ pk = power k :=
  (sortBins_perm _).mem_iff.trans mem_regionPowers

/-- The strongest bin of a region among those with a property is the first one with it in R204's order. -/
theorem find?_sortBins_of_strongestBin {power : Nat → Rat} {lo hi k : Nat} {bins : Nat → Prop} {q : Nat × Rat → Bool}
    (hk : StrongestBin power bins k) (hbins : ∀ j, bins j ↔ (lo ≤ j ∧ j ≤ hi) ∧ q (j, power j) = true) :
    (sortBins (regionPowers power lo hi)).find? q = some (k, power k) := by
  obtain ⟨hmem, hmax⟩ := hk
  obtain ⟨hregion, hq⟩ := (hbins k).1 hmem
  refine (sortBins_inOrder _).find?_eq_some (mem_sortBins_regionPowers.2 ⟨hregion, rfl⟩) hq ?_
  rintro ⟨j, pj⟩ hj hqj hne
  obtain ⟨hjregion, rfl⟩ := mem_sortBins_regionPowers.1 hj
  refine stronger_iff.2 ((hmax j ((hbins j).2 ⟨hjregion, hqj⟩)).imp_right fun ⟨hpow, hle⟩ => ⟨hpow.symm, ?_⟩)
  exact hle.lt_of_ne fun hkj => hne (by rw [hkj])

/-- order[0] of R204 is the strongest bin of the region. -/
theorem sortBins_eq_cons {power : Nat → Rat} {lo hi k : Nat}
    (hk : StrongestBin power (fun j => lo ≤ j ∧ j ≤ hi) k) :
    ∃ rest, sortBins (regionPowers power lo hi) = (k, power k) :: rest := by
  have hfirst := find?_sortBins_of_strongestBin (lo := lo) (hi := hi) (q := fun _ => true) hk (by simp)
  cases hsort : sortBins (regionPowers power lo hi) with
  | nil => simp [hsort] at hfirst
  | cons x rest =>
    simp only [hsort, List.find?_cons_of_pos, Option.some.injEq] at hfirst
    exact ⟨rest, by rw [hfirst]⟩

/-! ### The weakest bin (R205) -/

theorem minPower_le {l : List (Nat × Rat)} {x : Nat × Rat} (hx : x ∈ l) : minPower l ≤ x.2 := by
  induction l with
  | nil => simp at hx
  | cons a l ih =>
    cases l with
    | nil => rw [List.mem_singleton.1 hx]; exact le_rfl
    | cons b rest =>
      rcases List.mem_cons.1 hx with rfl | hx
      · exact min_le_left _ _
      · exact (min_le_right _ _).trans (ih hx)

theorem exists_mem_eq_minPower {l : List (Nat × Rat)} (hl : l ≠ []) : ∃ x ∈ l, x.2 = minPower l := by
  induction l with
  | nil => exact absurd rfl hl
  | cons a l ih =>
    cases l with
    | nil => exact ⟨a, List.mem_singleton_self a, rfl⟩
    | cons b rest =>
      obtain ⟨x, hx, hmin⟩ := ih (List.cons_ne_nil b rest)
      rcases min_choice a.2 (minPower (b :: rest)) with h | h
      · exact ⟨a, List.mem_cons_self, h.symm⟩
      · exact ⟨x, List.mem_cons_of_mem a hx, hmin.trans h.symm⟩

theorem minPower_regionPowers {power : Nat → Rat} {lo hi kmin : Nat} (hlo : lo ≤ kmin) (hhi : kmin ≤ hi)
    (hmin : ∀ k, lo ≤ k → k ≤ hi → power kmin ≤ power k) : minPower (regionPowers power lo hi) = power kmin := by
  have hmem : (kmin, power kmin) ∈ regionPowers power lo hi := mem_regionPowers.2 ⟨⟨hlo, hhi⟩, rfl⟩
  refine le_antisymm (minPower_le hmem) ?_
  obtain ⟨⟨k, pk⟩, hk, heq⟩ := exists_mem_eq_minPower (List.ne_nil_of_mem hmem)
  obtain ⟨⟨hklo, hkhi⟩, rfl⟩ := mem_regionPowers.1 hk
  rw [← heq]
  exact hmin k hklo hkhi

/-! ### The record of a region (R205, R206) -/

section Select

variable {power : Nat → Rat} {lo hi guard k0 : Nat} {abs rel : Rat}
  (h0 : StrongestBin power (fun j => lo ≤ j ∧ j ≤ hi) k0)

include h0

theorem selectRecord_eq_nil (hle : power k0 ≤ abs * minPower (regionPowers power lo hi)) :
    selectRecord power lo hi guard abs rel = [] := by
  obtain ⟨rest, hsort⟩ := sortBins_eq_cons h0
  simp only [selectRecord, hsort, if_neg hle.not_gt]

theorem selectRecord_eq_singleton (hlt : abs * minPower (regionPowers power lo hi) < power k0)
    (hnear : ∀ k, lo ≤ k → k ≤ hi → binDist k k0 < guard) :
    selectRecord power lo hi guard abs rel = [k0] := by
  obtain ⟨rest, hsort⟩ := sortBins_eq_cons h0
  have hfind : rest.find? (fun q => decide (guard ≤ binDist q.1 k0)) = none := by
    refine List.find?_eq_none.2 fun ⟨k, pk⟩ hk => ?_
    have hmem : (k, pk) ∈ sortBins (regionPowers power lo hi) := hsort ▸ List.mem_cons_of_mem _ hk
    obtain ⟨⟨hklo, hkhi⟩, -⟩ := mem_sortBins_regionPowers.1 hmem
    simpa using hnear k hklo hkhi
  simp only [selectRecord, hsort, if_pos hlt, hfind]

theorem selectRecord_of_strongest_outside {k1 : Nat} (hguard : 1 ≤ guard)
    (hlt : abs * minPower (regionPowers power lo hi) < power k0)
    (h1 : StrongestBin power (fun k => (lo ≤ k ∧ k ≤ hi) ∧ guard ≤ binDist k k0) k1) :
    selectRecord power lo hi guard abs rel
      = if abs * minPower (regionPowers power lo hi) < power k1 ∧ rel * power k0 < power k1 then [k0, k1] else [k0] := by
  obtain ⟨rest, hsort⟩ := sortBins_eq_cons h0
  have hfind : rest.find? (fun q => decide (guard ≤ binDist q.1 k0)) = some (k1, power k1) := by
    have hall := find?_sortBins_of_strongestBin (lo := lo) (hi := hi)
      (q := fun q => decide (guard ≤ binDist q.1 k0)) h1 (by simp)
    have hself : ¬guard ≤ binDist k0 k0 := by simp only [binDist]; omega
    rwa [hsort, List.find?_cons_of_neg (by simpa using hself)] at hall
  simp only [selectRecord, hsort, if_pos hlt, hfind]

end Select

/-- Settles O23: the first bin in R204's order is the strongest, the first one outside its guard the strongest there. -/
theorem recordIsTheStrongestBins : Obligations.RecordIsTheStrongestBins := by
  intro power lo hi guard k0 kmin abs rel hguard h0 hlo hhi hmin
  rw [← minPower_regionPowers hlo hhi hmin]
  exact ⟨selectRecord_eq_nil h0, fun hlt =>
    ⟨selectRecord_eq_singleton h0 hlt, fun _ => selectRecord_of_strongest_outside h0 hguard hlt⟩⟩

/-! ### The bins of a record (R206, R207) -/

/-- Every bin of a record lies in the region, and two bins are at least the guard apart. -/
structure RecordWithin (lo hi guard : Nat) (r : Record) : Prop where
  region : ∀ k ∈ r, lo ≤ k ∧ k ≤ hi
  apart : ∀ k0 k1, r = [k0, k1] → guard ≤ binDist k1 k0

theorem RecordWithin.nil (lo hi guard : Nat) : RecordWithin lo hi guard [] := ⟨nofun, nofun⟩

theorem RecordWithin.singleton {lo hi guard k : Nat} (h : lo ≤ k ∧ k ≤ hi) : RecordWithin lo hi guard [k] :=
  ⟨by simpa using h, nofun⟩

theorem RecordWithin.pair {lo hi guard k0 k1 : Nat} (h0 : lo ≤ k0 ∧ k0 ≤ hi) (h1 : lo ≤ k1 ∧ k1 ≤ hi)
    (hd : guard ≤ binDist k1 k0) : RecordWithin lo hi guard [k0, k1] where
  region := by simpa using ⟨h0, h1⟩
  apart _ _ h := by cases h; exact hd

theorem selectRecord_within (power : Nat → Rat) (lo hi guard : Nat) (abs rel : Rat) :
    RecordWithin lo hi guard (selectRecord power lo hi guard abs rel) := by
  unfold selectRecord
  simp only
  split
  case h_1 => exact .nil lo hi guard
  case h_2 k0 p0 rest hsort =>
    have hin : ∀ x ∈ (k0, p0) :: rest, lo ≤ x.1 ∧ x.1 ≤ hi :=
      fun x hx => (mem_sortBins_regionPowers.1 (hsort ▸ hx)).1
    have h0 := hin _ List.mem_cons_self
    split
    · split
      · exact .singleton h0
      · rename_i k1 p1 hfind
        have h1 := hin _ (List.mem_cons_of_mem _ (List.mem_of_find?_eq_some hfind))
        split
        · exact .pair h0 h1 (by simpa using List.find?_some hfind)
        · exact .singleton h0
    · exact .nil lo hi guard

theorem payloadRecord_within (p : Params) (l : Latched) (wb : List Rat) :
    RecordWithin (payloadRegion p.cfg l.band).1 (payloadRegion p.cfg l.band).2 (guardBins p.cfg l.band)
      (payloadRecord p l wb) := selectRecord_within _ _ _ _ _ _

theorem lagRecord_eq_nil {p : Params} {l : Latched} {wb : List Rat} (h : l.pre = false) : lagRecord p l wb = [] := by
  simp [lagRecord, h]

theorem lagRecord_within (p : Params) (l : Latched) (wb : List Rat) :
    RecordWithin (lagRegion p.cfg l.band).1 (lagRegion p.cfg l.band).2 (guardBins p.cfg l.band) (lagRecord p l wb) := by
  unfold lagRecord
  split
  · exact selectRecord_within _ _ _ _ _ _
  · exact .nil _ _ _

/-! ### Silence (R205) -/

/-- Where every power is 0, no bin exceeds the floor. -/
theorem selectRecord_zero (lo hi guard : Nat) (abs rel : Rat) : selectRecord (fun _ => 0) lo hi guard abs rel = [] := by
  unfold selectRecord
  simp only
  split
  case h_1 => rfl
  case h_2 k0 p0 rest hsort =>
    have hmem : (k0, p0) ∈ regionPowers (fun _ => 0) lo hi :=
      (sortBins_perm _).mem_iff.1 (hsort ▸ List.mem_cons_self)
    obtain ⟨⟨hlo, hhi⟩, rfl⟩ := mem_regionPowers.1 hmem
    rw [minPower_regionPowers hlo hhi fun _ _ _ => le_rfl, mul_zero, if_neg (lt_irrefl 0)]

theorem powerValue_of_silent (num : Numerics) (fft : Nat) {wb : List Rat} (h : ∀ x ∈ wb, x = 0) :
    powerValue num fft wb = fun _ => 0 := by
  funext k
  exact if_pos (List.all_eq_true.2 fun x hx => decide_eq_true (h x hx))

theorem selectRegion_of_silent (p : Params) (l : Latched) {wb : List Rat} (h : ∀ x ∈ wb, x = 0) (region : Nat × Nat) :
    selectRegion p l wb region = [] := by
  rw [selectRegion, powerValue_of_silent _ _ h, selectRecord_zero]

/-- Settles O24. -/
theorem recordBinsLieInTheRegion : Obligations.RecordBinsLieInTheRegion := by
  intro p l wb
  have hpay := payloadRecord_within p l wb
  have hlag := lagRecord_within p l wb
  refine ⟨payloadRecord_length p l wb, hpay.region, hpay.apart, lagRecord_length p l wb, hlag.region, hlag.apart,
    lagRecord_eq_nil, fun hsilent => ⟨selectRegion_of_silent p l hsilent _, ?_⟩⟩
  rw [lagRecord, selectRegion_of_silent p l hsilent, ite_self]

end Sys2Proof.Proofs

/-! PROOFS. The commands ANALYZE (43_spectral R211) and CAND_PUSH (45_decoder R267), and what the decoder step does to HIST
(45_decoder R264). -/

namespace Sys2Proof.Proofs

open Sys2Proof.Machine

/-! ### ANALYZE (R211) -/

theorem exec_analyze_ready {s : State} (hr : s.ready = true) : exec .analyze s = .next (analyzeEffect params s) := by
  rw [exec_analyze, gated_pass _ (fun _ => hr) rfl]

/-- ANALYZE hands the raw samples of one chunk to the spectral engine. -/
theorem analyzeEffect_eq_analyzeValues (p : Params) (s : State) :
    analyzeEffect p s = analyzeValues p
      ((List.range (chunkLen p.cfg s.latched.band)).map (fun n => (((inSample s n).toInt : ℤ) : Rat))) s := by
  rw [analyzeEffect, inSamples, List.map_map]
  rfl

/-- Settles O25: the gate passes, and the samples of the chunk make one slot step. -/
theorem analyzeMakesOneSlotStep : Obligations.AnalyzeMakesOneSlotStep := by
  intro s v wb hr hv hwb
  have heffect : analyzeEffect params s = analyzeValues params v s := by rw [analyzeEffect_eq_analyzeValues, ← hv]
  subst hwb
  exact ⟨analyzeValues params v s, by rw [exec_analyze_ready hr, heffect], rfl, analyzeValues_slot params v s⟩

/-! ### HIST in the decoder step (R254, R264) -/

/-- HIST is unchanged, or an acquisition with L.FCS = 1 has cleared it (R254, R264). -/
def HistKeptOrCleared (s t : State) : Prop :=
  t.session.hist = s.session.hist
    ∨ (s.latched.fcs = true ∧ t.session.dstate = .decoding ∧ t.session.prog = 0
        ∧ t.session.hist = List.replicate 31 0)

theorem acquire_histKeptOrCleared (s : State) : HistKeptOrCleared s (acquire s) := by
  by_cases hfcs : s.latched.fcs = true
  · exact .inr ⟨hfcs, rfl, rfl, if_pos hfcs⟩
  · exact .inl (if_neg hfcs)

theorem seekSync_histKeptOrCleared (c : Cfg) (s : State) : HistKeptOrCleared s (seekSync c s) := by
  unfold seekSync
  split
  · exact acquire_histKeptOrCleared s
  · exact .inl rfl

theorem appendPayload_hist (bs : List Byte) (s : State) : (appendPayload bs s).session.hist = s.session.hist := by
  induction bs generalizing s with
  | nil => rfl
  | cons b bs ih =>
    unfold appendPayload
    split
    · simp only [setDoneIrq_session, storePay_session]
    · split
      · simp only [ih, storePay_session]
      · exact ih _

theorem frameAttempt_hist (c : Cfg) (s : State) : (frameAttempt c s).session.hist = s.session.hist := by
  unfold frameAttempt
  simp only
  split
  · rfl
  · exact appendPayload_hist _ _

/-- An acquisition alone touches HIST (R252). -/
theorem decoderStep_histKeptOrCleared (c : Cfg) (s : State) : HistKeptOrCleared s (decoderStep c s) := by
  unfold decoderStep
  split
  · exact .inl rfl
  · exact seekSync_histKeptOrCleared c { s with session := { s.session with dstate := .awaitingSync } }
  · exact seekSync_histKeptOrCleared c s
  · split
    · exact acquire_histKeptOrCleared s
    · simp only
      split
      · exact .inl (frameAttempt_hist c _)
      · exact .inl rfl

/-! ### CAND_PUSH (R267) -/

theorem pushArgBad_eq_false {cnt lcnt : Nat} (hc : cnt ≤ 2) (hl : lcnt ≤ 2) : pushArgBad cnt lcnt = false :=
  Bool.or_eq_false_iff.2 ⟨decide_eq_false (by omega), decide_eq_false (by omega)⟩

theorem exec_candPush_ready {s : State} {cnt lcnt : Nat} (hr : s.ready = true) (hc : cnt ≤ 2) (hl : lcnt ≤ 2) :
    exec (.candPush cnt lcnt) s = .next (candPushEffect params.cfg cnt lcnt s) := by
  rw [exec_candPush, gated_pass _ (fun _ => hr) (pushArgBad_eq_false hc hl)]

/-- The two bins of an injection register are its halves (10_state R49, R50). -/
theorem injectedRecord_eq (reg : Word) (cnt : Nat) :
    injectedRecord reg cnt = [reg.toNat % 65536, reg.toNat / 65536].take cnt := by
  have hlow : (reg.extractLsb' 0 16).toNat = reg.toNat % 65536 := by simp
  have hhigh : (reg.extractLsb' 16 16).toNat = reg.toNat / 65536 := by
    have := reg.isLt
    rw [BitVec.extractLsb'_toNat, Nat.shiftRight_eq_div_pow]
    omega
  rw [injectedRecord, hlow, hhigh]

/-- Settles O27: the gate passes, and the injected records make one slot step. -/
theorem candPushMakesOneSlotStep : Obligations.CandPushMakesOneSlotStep := by
  intro s cnt lcnt rp rl hr hc hl hrp hrl
  rw [← injectedRecord_eq] at hrp hrl
  subst hrp hrl
  exact ⟨candPushEffect params.cfg cnt lcnt s, exec_candPush_ready hr hc hl, rfl, (slotStep_frame params.cfg _ _ s).wb,
    decoderStep_histKeptOrCleared params.cfg (pushSlot _ _ s),
    slotStep_slotPushed params.cfg _ s (injectedRecord_length _ cnt), slotStep_slotFrame params.cfg _ _ s⟩

end Sys2Proof.Proofs

/-! PROOFS. The tone synthesizer (44_synth): the samples of a burst, and what SYNTH leaves in OUT (R230, R231, R234). -/

namespace Sys2Proof.Proofs

open Sys2Proof.Machine

/-! ### The length of a burst (R230, 00_scope R6) -/

/-- A burst fits OUT. -/
theorem burstLen_le_outCap {c : Cfg} (hc : cfgValid c = true) (b : Band) : burstLen c b ≤ 8192 := by
  have h := bandValid_of_cfgValid hc b
  simp only [bandValid, Bool.and_eq_true, decide_eq_true_eq] at h
  obtain ⟨⟨⟨⟨⟨⟨⟨-, hcap⟩, -⟩, -⟩, -⟩, -⟩, -⟩, -⟩ := h
  exact hcap

/-- A burst is eight chunks, and a chunk has a sample. -/
theorem eight_le_burstLen {c : Cfg} (hc : cfgValid c = true) (b : Band) : 8 ≤ burstLen c b := by
  have hchunk : 1 ≤ burstLen c b / 8 := chunkLen_pos hc b
  omega

/-! ### The samples of a burst (R231) -/

theorem toneBurst_length (p : Params) (l : Latched) (sym : Nat) : (toneBurst p l sym).length = burstLen p.cfg l.band := by
  simp [toneBurst]

theorem toneBurst_getD (p : Params) (l : Latched) (sym : Nat) {n : Nat} (hn : n < burstLen p.cfg l.band) :
    (toneBurst p l sym).getD n 0 = toneSample p l sym n := by
  rw [List.getD_eq_getElem _ _ (by rwa [toneBurst_length])]
  simp [toneBurst]

theorem toneSample_toInt (p : Params) (l : Latched) (sym n : Nat) :
    (toneSample p l sym n).toInt
      = sat16 (rne (toneValue p.num p.cfg l.band (freqOf p.cfg l.band sym) p.cfg.synAmp l.fs.toNat
          (burstLen p.cfg l.band) sym n)) := roundSample_toInt _

/-- An integer is its own nearest integer (00_scope R15). -/
theorem rne_intCast (z : ℤ) : rne (z : Rat) = z := (nearestEven_rne (z : Rat)).unique (.inl (by simp))

theorem toneSample_zero (p : Params) (l : Latched) (sym : Nat) : toneSample p l sym 0 = 0 := by
  have hrne : rne 0 = 0 := rne_intCast 0
  rw [toneSample, toneValue, if_pos rfl, hrne]
  rfl

/-! ### SYNTH (R234) -/

theorem exec_synth_ready {s : State} {sym : Nat} (hr : s.ready = true) :
    exec (.synth sym) s = .next (storeOut (toneBurst params s.latched sym) s) := by
  rw [exec_synth, gated_pass _ (fun _ => hr) rfl]

theorem outSample_storeOut_toneBurst (p : Params) (sym : Nat) (s : State) {n : Nat}
    (hn : n < burstLen p.cfg s.latched.band) :
    outSample (storeOut (toneBurst p s.latched sym) s) n = toneSample p s.latched sym n := by
  rw [outSample_storeOut _ _ _ (by rwa [toneBurst_length]), toneBurst_getD _ _ _ hn]

/-- Settles O44: the gate passes, and the burst is stored in OUT. -/
theorem synthWritesTheBurst : Obligations.SynthWritesTheBurst := by
  intro s sym hr _
  have hpos : 0 < burstLen params.cfg s.latched.band :=
    Nat.zero_lt_of_lt (eight_le_burstLen cfg_valid s.latched.band)
  have hout := storeOut_keeps_outside (toneBurst params s.latched sym) s
  rw [toneBurst_length] at hout
  refine ⟨storeOut (toneBurst params s.latched sym) s, exec_synth_ready hr, burstLen_le_outCap cfg_valid s.latched.band,
    fun n hn => ?_, ?_, hout, rfl⟩
  · rw [outSample_storeOut_toneBurst params sym s hn, toneSample_toInt]
  · rw [outSample_storeOut_toneBurst params sym s hpos, toneSample_zero]

end Sys2Proof.Proofs

/-! PROOFS. The spectral engine on the machine's own bursts (44_synth R233): the strongest payload bin decides what a burst
is classified as, and the numeric type in use meets R233's bound, also where it is the fallback (log 18). -/

namespace Sys2Proof.Proofs

open Sys2Proof.Machine

/-! ### The strongest bin of a region (43_spectral R204, R206) -/

/-- order[0] of R204 is exactly the strongest bin of the region. -/
theorem head?_sortBins_eq_some_iff {power : Nat → Rat} {lo hi k : Nat} :
    (sortBins (regionPowers power lo hi)).head?.map (fun q => q.1) = some k
      ↔ StrongestBin power (fun j => lo ≤ j ∧ j ≤ hi) k := by
  constructor
  · intro hhead
    obtain ⟨⟨k', pk⟩, hfirst, rfl⟩ := Option.map_eq_some_iff.1 hhead
    obtain ⟨rest, hsort⟩ := List.head?_eq_some_iff.1 hfirst
    have hmem : (k', pk) ∈ sortBins (regionPowers power lo hi) := hsort ▸ List.mem_cons_self
    obtain ⟨hregion, rfl⟩ := mem_sortBins_regionPowers.1 hmem
    refine ⟨hregion, fun j hj => ?_⟩
    have hjmem : (j, power j) ∈ sortBins (regionPowers power lo hi) := mem_sortBins_regionPowers.2 ⟨hj, rfl⟩
    have horder : InOrder ((k', power k') :: rest) := hsort ▸ sortBins_inOrder _
    rw [hsort] at hjmem
    rcases List.mem_cons.1 hjmem with hsame | hlater
    · cases hsame
      exact .inr ⟨rfl, le_rfl⟩
    · have hnot := (List.pairwise_cons.1 horder).1 _ hlater
      simp only [stronger_iff, not_or, not_and, not_lt] at hnot
      obtain ⟨hle, htie⟩ := hnot
      exact hle.lt_or_eq.imp_right fun heq => ⟨heq, htie heq⟩
  · intro hk
    obtain ⟨rest, hsort⟩ := sortBins_eq_cons hk
    simp [hsort]

/-- A record that is not empty begins with the strongest bin of its region (R206). -/
theorem selectRecord_head? {power : Nat → Rat} {lo hi guard k : Nat} {abs rel : Rat}
    (hk : StrongestBin power (fun j => lo ≤ j ∧ j ≤ hi) k) (hne : selectRecord power lo hi guard abs rel ≠ []) :
    (selectRecord power lo hi guard abs rel).head? = some k := by
  obtain ⟨rest, hsort⟩ := sortBins_eq_cons hk
  simp only [selectRecord, hsort] at hne ⊢
  split at hne
  · rw [if_pos ‹_›]
    split
    · rfl
    · split <;> rfl
  · exact absurd rfl hne

/-! ### Bursts and their windows (R230) -/

/-- The synthesizer reads L.BAND and L.FS alone (R231). -/
theorem toneBurst_congr (p : Params) {l l' : Latched} (hband : l.band = l'.band) (hfs : l.fs.toNat = l'.fs.toNat)
    (sym : Nat) : toneBurst p l sym = toneBurst p l' sym := by
  have hsample : toneSample p l sym = toneSample p l' sym := by
    funext n
    rw [toneSample, toneSample, hband, hfs]
  rw [toneBurst, toneBurst, hsample, hband]

theorem burstSetting_fs (b : Band) : (burstSetting b).fs.toNat = rate b := by cases b <;> rfl

/-- Every L with L.FS at the band's rate gives the burst that R233 speaks of. -/
theorem burstWindow_eq (p : Params) {l : Latched} (hfs : l.fs.toNat = rate l.band) (sym : Nat) :
    burstWindow p l.band sym = (toneBurst p l sym).map (fun x => ((x.toInt : ℤ) : Rat)) := by
  rw [burstWindow, toneBurst_congr p (l := burstSetting l.band) (l' := l) rfl ((burstSetting_fs l.band).trans hfs.symm)]

/-- What the bound says of one burst: its strongest payload bin exists and is classified as its symbol. -/
theorem burstClassified_iff (p : Params) (b : Band) (sym : Nat) :
    burstClassified p b sym = true ↔
      ∃ k, StrongestBin (powerValue p.num (fftSize p.cfg b) (burstWindow p b sym))
          (fun k => (payloadRegion p.cfg b).1 ≤ k ∧ k ≤ (payloadRegion p.cfg b).2) k
        ∧ classify p.cfg b (rate b) k = sym := by
  simp only [← head?_sortBins_eq_some_iff]
  change _ ↔ ∃ k, burstBin p b sym = some k ∧ _
  unfold burstClassified
  cases burstBin p b sym with
  | none => simp
  | some k => simp

theorem ownBurstsClassified_iff (p : Params) :
    ownBurstsClassified p = true ↔ ∀ b sym, sym < 16 → burstClassified p b sym = true := by
  simp only [ownBurstsClassified, List.all_eq_true, List.mem_range, nsym]
  exact ⟨fun h b => h b (by cases b <;> decide), fun h b _ => h b⟩

/-! ### The fallback meets the bound for every valid configuration (log 18) -/

section Fallback

variable {c : Cfg} (hc : cfgValid c = true) (b : Band) {sym : Nat} (hs : sym < 16)

include hc hs

/-- A symbol's bin is at most half a burst (00_scope R6), so that the number after it is a sample. -/
theorem symbolBin_le_4096 : symbolBin c b sym ≤ 4096 := by
  have hhalf : symbolBin c b sym ≤ burstLen c b / 2 := symbolBin_le_half hc b hs
  have hlen := burstLen_le_outCap hc b
  omega

/-- Sample 1 of the fallback's burst carries the bin of its symbol. -/
theorem fallback_toneSample_one :
    (toneSample ⟨c, fallbackNumerics⟩ (burstSetting b) sym 1).toInt = (symbolBin c b sym : ℤ) + 1 := by
  have hvalue (amp f fs len : Nat) :
      toneValue fallbackNumerics c b f amp fs len sym 1 = (((symbolBin c b sym : ℤ) + 1 : ℤ) : Rat) := by
    simp [toneValue, toneFormula, fallbackNumerics]
  have hband : (burstSetting b).band = b := rfl
  have hbin := symbolBin_le_4096 hc b hs
  rw [toneSample_toInt, hband, hvalue, rne_intCast, sat16_eq_clamp]
  omega

theorem fallback_burstWindow_one :
    (burstWindow ⟨c, fallbackNumerics⟩ b sym).getD 1 0 = (symbolBin c b sym : Rat) + 1 := by
  have hlen : 1 < burstLen c b := by have := eight_le_burstLen hc b; omega
  have hsample : (toneBurst ⟨c, fallbackNumerics⟩ (burstSetting b) sym).getD 1 0
      = toneSample ⟨c, fallbackNumerics⟩ (burstSetting b) sym 1 := toneBurst_getD _ _ _ hlen
  have hmap := List.getD_map (l := toneBurst ⟨c, fallbackNumerics⟩ (burstSetting b) sym) (d := 0) (n := 1)
    (fun x => ((x.toInt : ℤ) : Rat))
  rw [hsample, fallback_toneSample_one hc b hs] at hmap
  simpa [burstWindow] using hmap

end Fallback

/-- Zero sines and cosines give the powers no share of the window. -/
theorem fallback_powerFormula (len k : Nat) (wb : List Rat) : powerFormula fallbackNumerics.trig len k wb = 0 := by
  have hpart : ∀ n, dftPart fallbackNumerics.trig (fun _ => 0) len k n wb = 0 := by
    induction wb with
    | nil => intro n; rfl
    | cons w ws ih => intro n; simp [dftPart, ih]
  have hzero : dftPart fallbackNumerics.trig fallbackNumerics.trig.cosTurn len k 0 wb = 0 := hpart 0
  have hzero' : dftPart fallbackNumerics.trig fallbackNumerics.trig.sinTurn len k 0 wb = 0 := hpart 0
  simp [powerFormula, hzero, hzero']

/-- The fallback's power is 1 at the bin that sample 1 carries, and 0 elsewhere. -/
theorem fallback_powerValue {wb : List Rat} {bin : Nat} (hwb : wb.getD 1 0 = (bin : Rat) + 1) (fft k : Nat) :
    powerValue fallbackNumerics fft wb k = if k = bin then 1 else 0 := by
  have hsound : ¬wb.all (fun x => decide (x = 0)) = true := by
    intro hall
    have hzero : wb.getD 1 0 = 0 := by
      rcases lt_or_ge 1 wb.length with hlt | hge
      · rw [List.getD_eq_getElem _ _ hlt]
        exact of_decide_eq_true (List.all_eq_true.1 hall _ (List.getElem_mem hlt))
      · exact List.getD_eq_default _ _ hge
    exact Nat.cast_add_one_ne_zero bin (hwb.symm.trans hzero)
  have herror : fallbackNumerics.powerError wb k = if wb.getD 1 0 = (k : Rat) + 1 then 1 else 0 := rfl
  rw [powerValue, if_neg hsound, fallback_powerFormula, zero_add, herror, hwb]
  simp only [add_left_inj, Nat.cast_inj, eq_comm]

/-- So the strongest payload bin of the fallback's burst is its symbol's bin. -/
theorem fallback_strongestBin {c : Cfg} (hc : cfgValid c = true) (b : Band) {sym : Nat} (hs : sym < 16) :
    StrongestBin (powerValue fallbackNumerics (fftSize c b) (burstWindow ⟨c, fallbackNumerics⟩ b sym))
      (fun k => (payloadRegion c b).1 ≤ k ∧ k ≤ (payloadRegion c b).2) (symbolBin c b sym) := by
  obtain ⟨hlo, hhalf, hhi, -⟩ := payloadRegionCoversEveryTone c b sym hc hs
  have hpower := fallback_powerValue (fallback_burstWindow_one hc b hs) (fftSize c b)
  refine ⟨⟨hlo.trans (Nat.sub_le _ _), (le_min hhalf (Nat.le_add_right _ _)).trans hhi⟩, fun j _ => ?_⟩
  rw [hpower, hpower, if_pos rfl]
  by_cases hj : j = symbolBin c b sym
  · exact .inr ⟨if_pos hj, hj.ge⟩
  · exact .inl (by rw [if_neg hj]; exact zero_lt_one)

theorem fallback_ownBurstsClassified {c : Cfg} (hc : cfgValid c = true) :
    ownBurstsClassified ⟨c, fallbackNumerics⟩ = true :=
  (ownBurstsClassified_iff _).2 fun b sym hs => (burstClassified_iff _ b sym).2
    ⟨symbolBin c b sym, fallback_strongestBin hc b hs, classifyRecoversTheSymbol c b sym hc hs⟩

/-! ### The parameters in use (R233) -/

/-- The numeric type in use meets the bound: it is a conforming one, or the fallback. -/
theorem params_ownBurstsClassified : ownBurstsClassified params = true := by
  unfold params numerics
  split
  · assumption
  · exact fallback_ownBurstsClassified cfg_valid

/-- Settles O45: the window is that of the bound, whose strongest bin is the one a record begins with. -/
theorem ownBurstsAreClassifiedAsTheirSymbols : Obligations.OwnBurstsAreClassifiedAsTheirSymbols := by
  intro l sym wb hs hfs hwb
  rw [← burstWindow_eq params hfs sym] at hwb
  subst hwb
  have hclassified := (ownBurstsClassified_iff params).1 params_ownBurstsClassified l.band sym hs
  obtain ⟨k, hk, hclass⟩ := (burstClassified_iff params l.band sym).1 hclassified
  exact ⟨k, hk, by rw [hfs, hclass], selectRecord_head? hk⟩

end Sys2Proof.Proofs

/-! PROOFS. In Done the decoder step does nothing (45_decoder R265), so that DSTATE, PAY_LEN and the PAY bytes stay until INIT,
CLEAR or reset. -/

namespace Sys2Proof.Proofs

open Sys2Proof.Machine

/-! ### The decoder and the commands in Done -/

/-- DSTATE, PAY_LEN and every PAY byte are unchanged (45_decoder R265). -/
structure PayloadFrozen (s t : State) : Prop where
  dstate : t.session.dstate = s.session.dstate
  payLen : t.session.payLen = s.session.payLen
  pay : ∀ i, i < 256 → byteAt t (payBase + i) = byteAt s (payBase + i)

theorem decoderStep_done (c : Cfg) {s : State} (hd : s.session.dstate = .done) : decoderStep c s = s := by
  simp only [decoderStep, hd]

/-- In Done a slot step is the slot push alone (43_spectral R210). -/
theorem slotStep_payloadFrozen (c : Cfg) (rp rl : Record) {s : State} (hd : s.session.dstate = .done) :
    PayloadFrozen s (slotStep c rp rl s) := by
  unfold slotStep
  rw [decoderStep_done c (s := pushSlot rp rl s) hd]
  exact ⟨rfl, rfl, fun i _ => byteAt_congr rfl rfl (payBase + i)⟩

theorem analyzeValues_payloadFrozen (p : Params) (v : List Rat) {s : State} (hd : s.session.dstate = .done) :
    PayloadFrozen s (analyzeValues p v s) :=
  have hslot := slotStep_payloadFrozen p.cfg (payloadRecord p s.latched (pushWindow s.session.wb v))
    (lagRecord p s.latched (pushWindow s.session.wb v))
    (s := { s with session := { s.session with wb := pushWindow s.session.wb v } }) hd
  ⟨hslot.dstate, hslot.payLen, hslot.pay⟩

theorem chunkEffect_payloadFrozen (p : Params) {s : State} (hd : s.session.dstate = .done) :
    PayloadFrozen s (chunkEffect p s) :=
  have hslot := analyzeValues_payloadFrozen p
    (firStream p.num s.h s.session.hist (inSamples s (chunkLen p.cfg s.latched.band))).1
    (s := { s with session := { s.session with
      hist := (firStream p.num s.h s.session.hist (inSamples s (chunkLen p.cfg s.latched.band))).2 } }) hd
  ⟨hslot.dstate, hslot.payLen, hslot.pay⟩

/-- In Done no command but INIT and CLEAR changes DSTATE or PAY_LEN, and those that make a slot step keep PAY. -/
theorem CommandEnd.keepsDone {s t : State} {i : Instr} (h : CommandEnd s i t) (hd : s.session.dstate = .done)
    (hinit : i ≠ .init) (hclear : i ≠ .clear) :
    t.session.dstate = s.session.dstate ∧ t.session.payLen = s.session.payLen
      ∧ (MayWritePay i → PayloadFrozen s t) := by
  have ofFrozen {u : State} (k : PayloadFrozen s u) : u.session.dstate = s.session.dstate
      ∧ u.session.payLen = s.session.payLen ∧ (MayWritePay i → PayloadFrozen s u) := ⟨k.dstate, k.payLen, fun _ => k⟩
  cases h with
  | error _ c => exact ofFrozen ⟨rfl, rfl, fun i _ => byteAt_congr rfl rfl (payBase + i)⟩
  | init | initFailed => exact absurd rfl hinit
  | clear => exact absurd rfl hclear
  | analyze => exact ofFrozen (analyzeValues_payloadFrozen params _ hd)
  | chunk => exact ofFrozen (chunkEffect_payloadFrozen params hd)
  | candPush cnt lcnt => exact ofFrozen (slotStep_payloadFrozen params.cfg _ _ hd)
  | nop | firRun | rsEnc | synth => exact ⟨rfl, rfl, by simp [MayWritePay]⟩
  | rsDec d k =>
    obtain ⟨-, -, hsession⟩ := rsDecEffect_keeps d k s
    rw [hsession]
    exact ⟨rfl, rfl, by simp [MayWritePay]⟩

/-- In Done a command is INIT or CLEAR, or it leaves PAY alone: by its own region, or as its slot step does nothing there. -/
theorem exec_keepsPay_of_done {i : Instr} {s t : State} (h : exec i s = .next t) (hd : s.session.dstate = .done)
    (hinit : i ≠ .init) (hclear : i ≠ .clear) (j : Nat) (hj : j < 256) :
    byteAt t (payBase + j) = byteAt s (payBase + j) := by
  rcases exec_keepsPay_or h with hk | hi
  · exact hk.pay j hj
  · obtain ⟨-, -, hfrozen⟩ := (exec_end h).keepsDone hd hinit hclear
    exact (hfrozen hi).pay j hj

/-! ### Steps -/

/-- The ways a step can leave Done (45_decoder R265): the reset input, or a core step of INIT or CLEAR. -/
def Restarts (s : State) : Prop :=
  (∃ rest, s.events = .reset :: rest)
    ∨ (s.busy = true ∧ CoreIsNext s ∧ (decode s.pend = .ok .init ∨ decode s.pend = .ok .clear))

theorem restarts_or_ne {s : State} {i : Instr} (hb : s.busy = true) (hc : CoreIsNext s) (hd : decode s.pend = .ok i) :
    Restarts s ∨ (i ≠ .init ∧ i ≠ .clear) := by
  by_cases hinit : i = .init
  · exact .inl (.inr ⟨hb, hc, .inl (hinit ▸ hd)⟩)
  · by_cases hclear : i = .clear
    · exact .inl (.inr ⟨hb, hc, .inr (hclear ▸ hd)⟩)
    · exact .inr ⟨hinit, hclear⟩

/-- A step from Done keeps DSTATE and PAY_LEN, or restarts the session. -/
theorem step_keepsDstate_of_done {s t : State} (h : step s = .next t) (hd : s.session.dstate = .done) :
    (t.session.dstate = .done ∧ t.session.payLen = s.session.payLen) ∨ Restarts s := by
  cases step_end h with
  | reset rest he => exact .inr (.inl ⟨rest, he⟩)
  | access _ ha => exact .inl (by rw [ha.session]; exact ⟨hd, rfl⟩)
  | idle | decodeError => exact .inl ⟨hd, rfl⟩
  | command rest i u hc hb hdec hu =>
    rcases restarts_or_ne hb hc hdec with hr | ⟨hinit, hclear⟩
    · exact .inr hr
    · obtain ⟨hdstate, hlen, -⟩ := hu.keepsDone hd hinit hclear
      exact .inl ⟨hdstate.trans hd, hlen⟩

/-- A step from Done keeps the PAY bytes, or restarts the session. -/
theorem step_keepsPay_of_done {s t : State} (h : step s = .next t) (hd : s.session.dstate = .done) :
    (∀ i, i < 256 → byteAt t (payBase + i) = byteAt s (payBase + i)) ∨ Restarts s := by
  cases step_memoryEnd h with
  | reset rest he => exact .inr (.inl ⟨rest, he⟩)
  | keepsPay _ hk => exact .inl hk.pay
  | command rest i u hc hb hdec hx =>
    rcases restarts_or_ne hb hc hdec with hr | ⟨hinit, hclear⟩
    · exact .inr hr
    · have hpay := exec_keepsPay_of_done hx hd hinit hclear
      exact .inl hpay

/-- Settles O58: a step from Done that does not restart the session keeps DSTATE and PAY_LEN, and PAY. -/
theorem doneIsLeftOnlyByInitClearOrReset : Obligations.DoneIsLeftOnlyByInitClearOrReset := by
  intro s t hd h
  rcases step_keepsDstate_of_done h hd with ⟨hdstate, hlen⟩ | hr
  · rcases step_keepsPay_of_done h hd with hpay | hr
    · exact .inl ⟨hdstate, hlen, hpay⟩
    · exact .inr hr
  · exact .inr hr

end Sys2Proof.Proofs

/-! PROOFS. The sync tests (45_decoder R253, R262) and classify (R259), read off the records and the frequencies. -/

namespace Sys2Proof.Proofs

open Sys2Proof.Machine

theorem binDist_eq_natAbs (a b : Nat) : binDist a b = ((a : ℤ) - (b : ℤ)).natAbs := by
  unfold binDist
  omega

/-! ### The sync tests -/

/-- A ring's entry has a bin near e; an entry beyond the ring is empty and has none (log 13). -/
theorem hasBinNear_getD_iff (guard e : Nat) (ring : List Record) (i : Nat) :
    hasBinNear guard e (ring.getD i []) = true
      ↔ ∃ r x, ring[i]? = some r ∧ x ∈ r ∧ ((x : ℤ) - (e : ℤ)).natAbs < guard := by
  rw [List.getD_eq_getElem?_getD]
  cases ring[i]? with
  | none => simp [hasBinNear]
  | some r => simp [hasBinNear, binDist_eq_natAbs]

/-- The sync nibbles by number: s0 is the low nibble of SYNC0 and is sent first (R253, 30_encoding R112). -/
theorem forall_syncNibbles_iff (c : Cfg) (p : Nat → Nat → Prop) :
    (∀ j, j < 4 → p j ((syncNibbles c).getD j 0))
      ↔ ∀ j nib, (j = 0 ∧ nib = c.sync0.toNat % 16) ∨ (j = 1 ∧ nib = c.sync0.toNat / 16)
          ∨ (j = 2 ∧ nib = c.sync1.toNat % 16) ∨ (j = 3 ∧ nib = c.sync1.toNat / 16) → p j nib := by
  constructor
  · rintro h j nib (⟨rfl, rfl⟩ | ⟨rfl, rfl⟩ | ⟨rfl, rfl⟩ | ⟨rfl, rfl⟩)
    · exact h 0 (by decide)
    · exact h 1 (by decide)
    · exact h 2 (by decide)
    · exact h 3 (by decide)
  · intro h j hj
    refine h j _ ?_
    interval_cases j <;> simp [syncNibbles]

/-- Settles O28: both tests ask the entries of whole symbol periods ago for a bin near an expected one. -/
theorem syncTestsLookOneSymbolPeriodApart : Obligations.SyncTestsLookOneSymbolPeriodApart := by
  intro c l ring _
  constructor
  · rw [← forall_syncNibbles_iff c]
    simp only [syncMatch, List.all_eq_true, List.mem_range, periodsAgo, hasBinNear_getD_iff]
    rfl
  · simp only [lagMatch, Bool.and_eq_true, periodsAgo, hasBinNear_getD_iff]
    rfl

/-! ### classify -/

theorem toneDist_eq_natAbs (c : Cfg) (b : Band) (fs x s : Nat) :
    toneDist c b fs x s = ((x * fs : ℤ) - (freqOf c b s * fftSize c b : ℤ)).natAbs := by
  simp [toneDist, binDist_eq_natAbs]

/-- A first minimum is the least of all indices with its value. -/
theorem FirstMin.le_of_eq {d : Nat → Nat} {n s j : Nat} (h : FirstMin d n s) (heq : d s = d j) : s ≤ j :=
  not_lt.1 fun hj => (h.first j hj).ne heq

/-- Settles O32: classify is the first minimum of the distances. -/
theorem classifyIsNearestFrequency : Obligations.ClassifyIsNearestFrequency := by
  intro c b fs x
  have hmin := classify_firstMin c b fs x
  refine ⟨hmin.lt, fun s hs => ?_⟩
  simp only [← toneDist_eq_natAbs]
  exact ⟨hmin.le s hs, hmin.le_of_eq⟩

end Sys2Proof.Proofs

/-! PROOFS. The frame attempt (45_decoder R256 to R258): the combinations in R257's order are the numbers below their count, in
mixed radix, and the first that decodes is the result; so a frame received without noise is accepted as combination 0. -/

namespace Sys2Proof.Proofs

open Sys2Proof.Machine

/-! ### The number of combinations -/

theorem candidateProduct_nil : candidateProduct [] = 1 := rfl

theorem candidateProduct_cons (r : Record) (rest : List Record) :
    candidateProduct (r :: rest) = r.length * candidateProduct rest := by
  simp [candidateProduct]

theorem candidateProduct_pos_iff (w : List Record) : 0 < candidateProduct w ↔ ∀ r ∈ w, r ≠ [] := by
  induction w with
  | nil => simp [candidateProduct_nil]
  | cons r rest ih => simp [candidateProduct_cons, ih, List.length_pos_iff]

/-- Where no slot is empty, the list that is tried has no empty slot (R256). -/
theorem candidateProduct_candidateLists_pos {w : List Record} (maxcomb : Nat) (h : 0 < candidateProduct w) :
    0 < candidateProduct (candidateLists maxcomb w) := by
  unfold candidateLists
  split
  · exact h
  · rw [candidateProduct_pos_iff] at h ⊢
    simpa using h

/-! ### Combinations are numbers in mixed radix (R257) -/

/-- The combinations with slot 0 added in front, candidate after candidate. -/
theorem combinations_cons_eq {rest : List Record}
    (hrest : combinations rest = (List.range (candidateProduct rest)).map (radixChoice rest)) (r : Record) :
    combinations (r :: rest) = (List.range (candidateProduct (r :: rest))).map (radixChoice (r :: rest)) := by
  induction r with
  | nil => simp [combinations, candidateProduct_cons]
  | cons x r ih =>
    have hfirst : (List.range (candidateProduct rest)).map (radixChoice ((x :: r) :: rest))
        = (combinations rest).map (fun c => x :: c) := by
      rw [hrest, List.map_map]
      refine List.map_congr_left fun m hm => ?_
      have hm := List.mem_range.1 hm
      simp [radixChoice, Nat.div_eq_of_lt hm, Nat.mod_eq_of_lt hm]
    have hlater : (List.range (candidateProduct (r :: rest))).map
          (fun m => radixChoice ((x :: r) :: rest) (candidateProduct rest + m))
        = combinations (r :: rest) := by
      rw [ih]
      refine List.map_congr_left fun m hm => ?_
      have hpos : 0 < candidateProduct rest := by
        rw [List.mem_range, candidateProduct_cons] at hm
        exact Nat.pos_of_mul_pos_left (Nat.zero_lt_of_lt hm)
      simp [radixChoice, Nat.add_div_left m hpos]
    calc combinations ((x :: r) :: rest)
        = (combinations rest).map (fun c => x :: c) ++ combinations (r :: rest) := by simp [combinations]
      _ = (List.range (candidateProduct rest + candidateProduct (r :: rest))).map
            (radixChoice ((x :: r) :: rest)) := by
          rw [List.range_add, List.map_append, hfirst, List.map_map, ← hlater]
          rfl
      _ = _ := by rw [candidateProduct_cons, candidateProduct_cons, List.length_cons, Nat.succ_mul, Nat.add_comm]

theorem combinations_eq (lst : List Record) :
    combinations lst = (List.range (candidateProduct lst)).map (radixChoice lst) := by
  induction lst with
  | nil => rfl
  | cons r rest ih => exact combinations_cons_eq ih r

/-! ### The first combination that decodes -/

theorem findSome?_range_eq_some_iff {β : Type} (f : Nat → Option β) (n : Nat) (b : β) :
    (List.range n).findSome? f = some b ↔ ∃ m, m < n ∧ f m = some b ∧ ∀ m', m' < m → f m' = none := by
  induction n with
  | zero => simp
  | succ n ih =>
    have hnone : (List.range n).findSome? f = none ↔ ∀ m, m < n → f m = none := by simp
    rw [List.range_succ, List.findSome?_append, Option.or_eq_some_iff, ih, hnone, List.findSome?_singleton]
    constructor
    · rintro (⟨m, hm, hfound⟩ | ⟨hbefore, hn⟩)
      · exact ⟨m, Nat.lt_succ_of_lt hm, hfound⟩
      · exact ⟨n, n.lt_succ_self, hn, hbefore⟩
    · rintro ⟨m, hm, hfound⟩
      rcases Nat.lt_succ_iff_lt_or_eq.1 hm with hm | rfl
      · exact .inl ⟨m, hm, hfound⟩
      · exact .inr hfound.symm

theorem tryFrame_eq_some_iff (c : Cfg) (l : Latched) (cw fr : List Byte) : tryFrame c l cw = some fr ↔
    ∃ count, rsDecode cw l.dataBytes l.k.toNat = some (count, fr) ∧ fr.getD 0 0 = c.sync0 ∧ fr.getD 1 0 = c.sync1 := by
  unfold tryFrame
  cases rsDecode cw l.dataBytes l.k.toNat with
  | none => simp
  | some answer =>
    obtain ⟨count, fr'⟩ := answer
    simp only [Option.some.injEq, Prod.mk.injEq]
    constructor
    · intro h
      split at h <;> cases h
      exact ⟨count, ⟨rfl, rfl⟩, ‹_›⟩
    · rintro ⟨_, ⟨-, rfl⟩, hsync⟩
      exact if_pos hsync

theorem attemptResult_eq_none {c : Cfg} {l : Latched} {ring : List Record}
    (h : candidateProduct (frameWindow l ring) = 0) : attemptResult c l ring = none := if_pos h

/-- The attempt's result is the frame of the smallest combination number that gives one (R256, R257). -/
theorem attemptResult_eq_some_iff {c : Cfg} {l : Latched} {ring : List Record} {lst : List Record}
    (h : 0 < candidateProduct (frameWindow l ring)) (hlst : lst = candidateLists l.maxcomb.toNat (frameWindow l ring))
    (fr : List Byte) :
    attemptResult c l ring = some fr ↔ ∃ m, m < candidateProduct lst
      ∧ tryCombination c l (radixChoice lst m) = some fr
      ∧ ∀ m', m' < m → tryCombination c l (radixChoice lst m') = none := by
  simp only [attemptResult, if_neg h.ne', ← hlst, combinations_eq, List.findSome?_map, findSome?_range_eq_some_iff,
    Function.comp_apply]

/-- Settles O31: the attempt scans the combination numbers in increasing order. -/
theorem attemptTakesTheFirstCombinationThatDecodes : Obligations.AttemptTakesTheFirstCombinationThatDecodes := by
  intro c l ring w lst hw hlst
  subst hw
  exact ⟨attemptResult_eq_none, fun h => attemptResult_eq_some_iff h hlst, tryFrame_eq_some_iff c l⟩

/-! ### A frame received without noise (R269, 30_encoding R111, R112) -/

theorem frameSymbols_lt {fr : List Byte} {s : Nat} (h : s ∈ frameSymbols fr) : s < 16 := by
  induction fr with
  | nil => simp [frameSymbols] at h
  | cons b bs ih =>
    rcases List.mem_cons.1 h with rfl | h
    · omega
    · rcases List.mem_cons.1 h with rfl | h
      · omega
      · exact ih h

theorem map_getD_range {α : Type} (l : List α) (d : α) : (List.range l.length).map (fun j => l.getD j d) = l :=
  List.ext_getElem (by simp) fun i _ hi => by simp [hi]

/-- Combination 0 takes every slot's best candidate. -/
theorem radixChoice_zero (lst : List Record) : radixChoice lst 0 = lst.map (fun r => r.getD 0 0) := by
  induction lst with
  | nil => rfl
  | cons r rest ih => simp [radixChoice, ih]

/-- The bound MAXCOMB does not touch combination 0. -/
theorem radixChoice_candidateLists_zero (maxcomb : Nat) (w : List Record) :
    radixChoice (candidateLists maxcomb w) 0 = radixChoice w 0 := by
  unfold candidateLists
  split
  · rfl
  · rw [radixChoice_zero, radixChoice_zero, List.map_map]
    refine List.map_congr_left fun r _ => ?_
    cases r <;> rfl

/-- If combination 0 gives a frame, it is the result. -/
theorem attemptResult_of_best {c : Cfg} {l : Latched} {ring : List Record} {fr : List Byte}
    (hpos : 0 < candidateProduct (frameWindow l ring))
    (hfr : tryCombination c l ((frameWindow l ring).map (fun r => r.getD 0 0)) = some fr) :
    attemptResult c l ring = some fr := by
  refine (attemptResult_eq_some_iff hpos rfl fr).2 ⟨0, candidateProduct_candidateLists_pos _ hpos, ?_, nofun⟩
  rw [radixChoice_candidateLists_zero, radixChoice_zero, hfr]

/-- The bins of a frame's symbols give back the frame's bytes (R257, R259). -/
theorem tryCombination_symbolBins {c : Cfg} (hc : cfgValid c = true) {l : Latched} (hfs : l.fs.toNat = rate l.band)
    (fr : List Byte) : tryCombination c l ((frameSymbols fr).map (symbolBin c l.band)) = tryFrame c l fr := by
  have hclassify : ((frameSymbols fr).map (symbolBin c l.band)).map (classify c l.band l.fs.toNat) = frameSymbols fr := by
    rw [List.map_map, hfs]
    refine (List.map_congr_left fun s hs => ?_).trans (List.map_id _)
    exact classifyRecoversTheSymbol c l.band s hc (frameSymbols_lt hs)
  rw [tryCombination, hclassify, nibblesToBytes_frameSymbols]

/-- An undisturbed frame passes RS decoding and the sync check (R258, 41_reed_solomon R160). -/
theorem tryFrame_frameOf (c : Cfg) {l : Latched} {payload : List Byte} (hn : 2 ≤ l.n.toNat)
    (hp : payload.length ≤ l.n.toNat - 1) :
    tryFrame c l (frameOf c l.n.toNat l.k.toNat payload) = some (frameOf c l.n.toNat l.k.toNat payload) := by
  have hcode : isCodeword (frameOf c l.n.toNat l.k.toNat payload) l.dataBytes l.k.toNat = true :=
    isCodeword_append l.k.toNat (frameData_length c hn hp)
  exact (tryFrame_eq_some_iff c l _ _).2 ⟨0, rsDecode_of_isCodeword hcode, rfl, rfl⟩

/-- Settles O35: combination 0 is the sent frame, and it decodes. -/
theorem cleanFrameIsAccepted : Obligations.CleanFrameIsAccepted := by
  intro c l payload ring hc hn hfs hp hslots
  set fr := frameOf c l.n.toNat l.k.toNat payload with hfr
  have hlen : (frameSymbols fr).length = l.frameSlots := by
    rw [frameSymbols_length, hfr, frameOf_length c _ hn hp]
    rfl
  have hbest : (frameWindow l ring).map (fun r => r.getD 0 0) = (frameSymbols fr).map (symbolBin c l.band) := by
    rw [← map_getD_range (frameSymbols fr) 0, hlen, frameWindow, List.map_map, List.map_map]
    refine List.map_congr_left fun j hj => ?_
    obtain ⟨others, hslot⟩ := hslots j (List.mem_range.1 hj)
    simp only [Function.comp_apply, hslot, List.getD_cons_zero]
  have hpos : 0 < candidateProduct (frameWindow l ring) := by
    rw [candidateProduct_pos_iff, frameWindow, List.forall_mem_map]
    intro j hj
    obtain ⟨others, hslot⟩ := hslots j (List.mem_range.1 hj)
    exact hslot ▸ List.cons_ne_nil _ _
  refine attemptResult_of_best hpos ?_
  rw [hbest, tryCombination_symbolBins hc hfs, hfr, tryFrame_frameOf c hn hp]

end Sys2Proof.Proofs

/-! PROOFS. What accepting a frame does to PAY, to the session and to the interrupts (45_decoder R260). -/

namespace Sys2Proof.Proofs

open Sys2Proof.Machine

/-! ### The payload loop of accept (R260): one byte -/

/-- The state after the byte `b` has been stored at PAY_LEN and counted. -/
def storeText (b : Byte) (s : State) : State :=
  { s with
    session := { s.session with payLen := s.session.payLen + 1 }
    mem := (storePay s.session.payLen.toNat b s).mem }

/-- The state after a byte has been dropped for want of room. -/
def dropText (s : State) : State := { s with session := { s.session with payOvf := true } }

/-- The state after the terminating NUL has been stored and counted. -/
def storeNul (s : State) : State :=
  setDoneIrq { storeText 0 s with session := { (storeText 0 s).session with dstate := .done } }

theorem appendPayload_nil (s : State) :
    appendPayload [] s = { s with session := { s.session with dstate := .frameComplete } } := rfl

theorem appendPayload_nul (bs : List Byte) (s : State) : appendPayload (0 :: bs) s = storeNul s := by
  rw [appendPayload, if_pos rfl]
  unfold storeNul storeText storePay
  split <;> rfl

theorem appendPayload_room {b : Byte} (hb : b ≠ 0) (bs : List Byte) {s : State}
    (hroom : s.session.payLen.toNat < s.latched.maxstr.toNat - 1) :
    appendPayload (b :: bs) s = appendPayload bs (storeText b s) := by
  rw [appendPayload, if_neg hb, if_pos hroom]
  unfold storeText storePay
  split <;> rfl

theorem appendPayload_full {b : Byte} (hb : b ≠ 0) (bs : List Byte) {s : State}
    (hfull : ¬s.session.payLen.toNat < s.latched.maxstr.toNat - 1) :
    appendPayload (b :: bs) s = appendPayload bs (dropText s) := by
  rw [appendPayload, if_neg hb, if_neg hfull]
  rfl

theorem nul_mem_cons_iff {b : Byte} (hb : b ≠ 0) (bs : List Byte) : 0 ∈ b :: bs ↔ 0 ∈ bs :=
  List.mem_cons.trans (or_iff_right (Ne.symm hb))

/-- Everything but PAY, PAY_LEN and PAY_OVF after the payload loop: DSTATE and DONE tell whether there was a NUL. -/
theorem appendPayload_eq (bs : List Byte) (s : State) : appendPayload bs s = { s with
    session := { s.session with
      payLen := (appendPayload bs s).session.payLen
      payOvf := (appendPayload bs s).session.payOvf
      dstate := if 0 ∈ bs then .done else .frameComplete }
    mem := (appendPayload bs s).mem
    irqStatus := s.irqStatus ||| (if 0 ∈ bs then 0b0100 else 0) } := by
  induction bs generalizing s with
  | nil => simp [appendPayload_nil]
  | cons b bs ih =>
    by_cases hb : b = 0
    · subst hb
      simp only [appendPayload_nul, List.mem_cons, true_or, if_true]
      rfl
    · simp only [nul_mem_cons_iff hb]
      by_cases hroom : s.session.payLen.toNat < s.latched.maxstr.toNat - 1
      · rw [appendPayload_room hb bs hroom]
        exact ih (storeText b s)
      · rw [appendPayload_full hb bs hroom]
        exact ih (dropText s)

/-! ### What the payload loop stores (R260) -/

/-- The bytes before the first NUL. -/
def textOf (bs : List Byte) : List Byte := bs.takeWhile (fun b => decide (b ≠ 0))

/-- The bytes of `bs` that are stored with room for `room` text bytes: `storedPayload` over a list. -/
def storedText (room : Nat) (bs : List Byte) : List Byte := (textOf bs).take room ++ (if 0 ∈ bs then [0] else [])

theorem storedPayload_eq (n room : Nat) (fr : List Byte) : storedPayload n room fr = storedText room (framePayload n fr) :=
  rfl

theorem payloadText_eq (n : Nat) (fr : List Byte) : payloadText n fr = textOf (framePayload n fr) := rfl

theorem textOf_nul (bs : List Byte) : textOf (0 :: bs) = [] := rfl

theorem textOf_cons {b : Byte} (hb : b ≠ 0) (bs : List Byte) : textOf (b :: bs) = b :: textOf bs :=
  List.takeWhile_cons_of_pos (decide_eq_true hb)

theorem storedText_nil (room : Nat) : storedText room [] = [] := by simp [storedText, textOf]

theorem storedText_nul (room : Nat) (bs : List Byte) : storedText room (0 :: bs) = [0] := by
  rw [storedText, textOf_nul, List.take_nil, if_pos List.mem_cons_self, List.nil_append]

theorem storedText_room {b : Byte} (hb : b ≠ 0) (room : Nat) (bs : List Byte) :
    storedText (room + 1) (b :: bs) = b :: storedText room bs := by
  simp only [storedText, textOf_cons hb, nul_mem_cons_iff hb, List.take_succ_cons, List.cons_append]

theorem storedText_full {b : Byte} (hb : b ≠ 0) (bs : List Byte) : storedText 0 (b :: bs) = storedText 0 bs := by
  simp only [storedText, nul_mem_cons_iff hb, List.take_zero]

/-- The stored bytes stand in PAY from the old PAY_LEN and are counted, and PAY_OVF tells whether text was dropped. -/
structure StoresText (room : Nat) (bs : List Byte) (s t : State) : Prop where
  payLen : t.session.payLen.toNat = s.session.payLen.toNat + (storedText room bs).length
  payOvf : t.session.payOvf = (s.session.payOvf || decide (room < (textOf bs).length))
  bytes : ∀ i, i < (storedText room bs).length →
    byteAt t (payBase + s.session.payLen.toNat + i) = (storedText room bs).getD i 0

theorem byteAt_storeText {b : Byte} {s : State} (h : s.session.payLen.toNat < 256) :
    byteAt (storeText b s) (payBase + s.session.payLen.toNat) = b := by
  rw [byteAt_congr (s := storePay s.session.payLen.toNat b s) (t := storeText b s) rfl
    (storePay_frame _ b s).host.epoch.symm, byteAt_storePay _ b s _ h, if_pos rfl]

section Loop

variable {b : Byte} {bs : List Byte} {s : State} {room : Nat}

theorem StoresText.of_nul (hlen : s.session.payLen.toNat ≤ s.latched.maxstr.toNat) :
    StoresText room (0 :: bs) s (storeNul s) := by
  have hmax := s.latched.maxstr.isLt
  constructor
  case payLen => rw [storedText_nul]; exact payLen_succ_toNat hlen
  case payOvf => rw [textOf_nul]; exact (Bool.or_false _).symm
  case bytes =>
    rw [storedText_nul]
    intro i hi
    obtain rfl : i = 0 := Nat.lt_one_iff.1 hi
    exact byteAt_storeText (b := 0) (s := s) (by omega)

/-- A stored text byte, then the rest of the loop, which keeps the bytes before its own PAY_LEN. -/
theorem StoresText.of_room (hb : b ≠ 0) (hlen : s.session.payLen.toNat ≤ s.latched.maxstr.toNat)
    (h : StoresText room bs (storeText b s) (appendPayload bs (storeText b s))) :
    StoresText (room + 1) (b :: bs) s (appendPayload bs (storeText b s)) := by
  have hmax := s.latched.maxstr.isLt
  have hsucc : (storeText b s).session.payLen.toNat = s.session.payLen.toNat + 1 := payLen_succ_toNat hlen
  constructor
  case payLen => rw [h.payLen, hsucc, storedText_room hb, List.length_cons]; omega
  case payOvf => rw [h.payOvf, textOf_cons hb, List.length_cons, decide_eq_decide.2 Nat.succ_lt_succ_iff]; rfl
  case bytes =>
    intro i hi
    rw [storedText_room hb] at hi ⊢
    cases i with
    | zero =>
      have hkept := (appendPayload_appendsPay bs (storeText b s)).bytes (payBase + s.session.payLen.toNat)
        (.inl (by omega))
      exact hkept.trans (byteAt_storeText (by omega))
    | succ i =>
      have hrest := h.bytes i (Nat.lt_of_succ_lt_succ hi)
      rw [hsucc] at hrest
      rw [List.getD_cons_succ, ← hrest]
      congr 1
      omega

theorem StoresText.of_full {t : State} (hb : b ≠ 0) (h : StoresText 0 bs (dropText s) t) :
    StoresText 0 (b :: bs) s t where
  payLen := by rw [storedText_full hb]; exact h.payLen
  payOvf := by simpa [dropText, textOf_cons hb] using h.payOvf
  bytes := by rw [storedText_full hb]; exact h.bytes

end Loop

/-- The payload loop stores text up to MAXSTR − 1 bytes in all, and the NUL behind it. -/
theorem appendPayload_storesText (bs : List Byte) {s : State} {room : Nat} (hm : 2 ≤ s.latched.maxstr.toNat)
    (hroom : s.session.payLen.toNat + room = s.latched.maxstr.toNat - 1) :
    StoresText room bs s (appendPayload bs s) := by
  induction bs generalizing s room with
  | nil => rw [appendPayload_nil]; exact ⟨by simp [storedText_nil], by simp [textOf], by simp [storedText_nil]⟩
  | cons b bs ih =>
    by_cases hb : b = 0
    · subst hb
      rw [appendPayload_nul]
      exact .of_nul (by omega)
    · cases room with
      | zero =>
        rw [appendPayload_full hb bs (by omega)]
        exact .of_full hb (ih (s := dropText s) hm hroom)
      | succ room =>
        have hsucc : (storeText b s).session.payLen.toNat = s.session.payLen.toNat + 1 :=
          payLen_succ_toNat (m := s.latched.maxstr) (by omega)
        rw [appendPayload_room hb bs (by omega)]
        have hrest : (storeText b s).session.payLen.toNat + room = s.latched.maxstr.toNat - 1 := by omega
        exact .of_room hb (by omega) (ih hm hrest)

/-! ### accept (R260) -/

/-- The state after the frame has been counted and FRAME_OK raised. -/
def countFrame (s : State) : State :=
  setFrameOk { s with session := { s.session with frameCnt := s.session.frameCnt + 1 } }

theorem accept_eq_appendPayload (fr : List Byte) (s : State) :
    accept fr s = appendPayload (framePayload s.latched.n.toNat fr) (countFrame s) := rfl

/-- Settles O30: the payload loop over the counted frame, its frame, and the bytes it stores. -/
theorem acceptAppendsThePayload : Obligations.AcceptAppendsThePayload := by
  intro fr s t room stored hm hroom hstored ht
  rw [accept_eq_appendPayload] at ht
  have heq := appendPayload_eq (framePayload s.latched.n.toNat fr) (countFrame s)
  have hstores := appendPayload_storesText (framePayload s.latched.n.toNat fr) (s := countFrame s) hm hroom
  rw [← ht] at heq hstores
  rw [storedPayload_eq] at hstored
  have hlen : t.session.payLen.toNat = s.session.payLen.toNat + stored.length := by
    rw [hstored]; exact hstores.payLen
  refine ⟨hlen, ?_, ?_, ?_, ?_⟩
  · rw [hstored]; exact hstores.bytes
  · have hbytes := (accept_appendsPay fr s).bytes
    rwa [accept_eq_appendPayload, ← ht, hlen, Nat.add_sub_cancel_left] at hbytes
  · have hovf : (s.session.payOvf || decide (room < (textOf (framePayload s.latched.n.toNat fr)).length))
        = t.session.payOvf := hstores.payOvf.symm
    rw [payloadText_eq, hovf]
    exact congrArg State.session heq
  · exact heq.trans (congrArg (fun x : Session => { s with
      session := x
      mem := t.mem
      irqStatus := s.irqStatus ||| 0b0010 ||| (if 0 ∈ framePayload s.latched.n.toNat fr then 0b0100 else 0) })
      (congrArg State.session heq).symm)

end Sys2Proof.Proofs

/-! PROOFS. The decoder step row by row (45_decoder R252, R268). -/

namespace Sys2Proof.Proofs

open Sys2Proof.Machine

/-! ### AwaitingSync and FrameComplete -/

theorem seekSync_of_syncSeen {c : Cfg} {s : State} (h : SyncSeen c s) : seekSync c s = acquire s :=
  if_pos (by simpa [SyncSeen] using h)

theorem seekSync_of_not_syncSeen {c : Cfg} {s : State} (h : ¬SyncSeen c s) : seekSync c s = s :=
  if_neg (by simpa [SyncSeen] using h)

/-- FrameComplete turns into AwaitingSync before its sync test (R252). -/
theorem decoderStep_seeking (c : Cfg) {s : State}
    (hd : s.session.dstate = .awaitingSync ∨ s.session.dstate = .frameComplete) :
    decoderStep c s = seekSync c { s with session := { s.session with dstate := .awaitingSync } } := by
  rcases hd with hd | hd <;> simp only [decoderStep, hd]
  rw [← hd]

/-! ### Decoding -/

theorem lagSeen_iff (c : Cfg) (s : State) :
    LagSeen c s ↔ (s.latched.pre && lagMatch c s.latched s.session.lring) = true := by
  rw [LagSeen, Bool.and_eq_true]

/-- A lag match restarts the frame, in the attempt's slot too (R263). -/
theorem decoderStep_of_lagSeen {c : Cfg} {s : State} (hd : s.session.dstate = .decoding) (h : LagSeen c s) :
    decoderStep c s = acquire s := by
  simp only [decoderStep, hd]
  exact if_pos ((lagSeen_iff c s).1 h)

theorem decoderStep_counts {c : Cfg} {s : State} (hd : s.session.dstate = .decoding) (h : ¬LagSeen c s)
    (hp : s.session.prog + 1 ≠ 8 * (s.latched.frameSlots - 4)) :
    decoderStep c s = { s with session := { s.session with prog := s.session.prog + 1 } } := by
  simp only [decoderStep, hd]
  rw [if_neg (mt (lagSeen_iff c s).2 h), if_neg hp]

theorem decoderStep_attempts {c : Cfg} {s : State} (hd : s.session.dstate = .decoding) (h : ¬LagSeen c s)
    (hp : s.session.prog + 1 = 8 * (s.latched.frameSlots - 4)) :
    decoderStep c s = frameAttempt c { s with session := { s.session with prog := s.session.prog + 1 } } := by
  simp only [decoderStep, hd]
  rw [if_neg (mt (lagSeen_iff c s).2 h), if_pos hp]

theorem frameAttempt_of_none {c : Cfg} {s : State} (h : attemptResult c s.latched s.session.ring = none) :
    frameAttempt c s = reject { s with session := { s.session with prog := 0 } } := by
  simp only [frameAttempt, h]

theorem frameAttempt_of_some {c : Cfg} {s : State} {fr : List Byte}
    (h : attemptResult c s.latched s.session.ring = some fr) :
    frameAttempt c s = accept fr { s with session := { s.session with prog := 0 } } := by
  simp only [frameAttempt, h]

/-- Accepting keeps PROG, and ends in Done exactly with a NUL. -/
theorem accept_prog_dstate (fr : List Byte) (s : State) : (accept fr s).session.prog = s.session.prog
    ∧ (accept fr s).session.dstate = if 0 ∈ framePayload s.latched.n.toNat fr then .done else .frameComplete := by
  rw [accept_eq_appendPayload, appendPayload_eq]
  exact ⟨rfl, rfl⟩

/-! ### The rows -/

/-- Settles O29: one row per state of the decoder and outcome of its tests. -/
theorem decoderTransitions : Obligations.DecoderTransitions := by
  intro c s
  refine ⟨decoderStep_done c, fun hd hsync => ?_, fun hd hsync => ?_, fun hd hlag => ?_, fun hd hlag hp => ?_,
    fun hd hlag hp hnone => ?_, fun hd hlag hp fr hsome => ?_⟩
  · exact (decoderStep_seeking c hd).trans (seekSync_of_syncSeen hsync)
  · exact (decoderStep_seeking c hd).trans (seekSync_of_not_syncSeen hsync)
  · rw [decoderStep_of_lagSeen hd hlag, acquire, ← hd]
  · exact decoderStep_counts hd hlag hp
  · exact (decoderStep_attempts hd hlag hp).trans (frameAttempt_of_none hnone)
  · have hstep : decoderStep c s = accept fr { s with session := { s.session with prog := 0 } } :=
      (decoderStep_attempts hd hlag hp).trans (frameAttempt_of_some hsome)
    obtain ⟨hprog, hdstate⟩ := accept_prog_dstate fr { s with session := { s.session with prog := 0 } }
    rw [← hstep] at hprog hdstate
    exact ⟨hstep, hprog, hdstate⟩

end Sys2Proof.Proofs

/-! PROOFS. The core step of an accepted word (60_exceptions R303, R311), the error report and its acknowledgment (R305),
and the acceptance of a command (R302). -/

namespace Sys2Proof.Proofs

open Sys2Proof.Machine

/-! ### The core step (R303) -/

theorem coreTurn_idle {s : State} (hb : s.busy = false) : coreTurn s = .next s := by
  simp [coreTurn, hb]

/-- The core's turn while BUSY = 1: what the word in PEND does, and its completion. -/
theorem step_of_runCommand {s t : State} (hb : s.busy = true) (hcore : CoreIsNext s)
    (h : runCommand { s with events := s.events.tail } = .next t) : step s = .next (complete t) := by
  rw [step_of_coreIsNext hcore, coreTurn, if_pos hb, coreStep, h, finishCommand_next]

theorem runCommand_of_exec {s t : State} {i : Instr} (hd : decode s.pend = .ok i) (h : exec i s = .next t) :
    runCommand s = .next t := by
  simp only [runCommand, hd, h]

theorem runCommand_illegalOp {s : State} (hd : decode s.pend = .illegalOp) :
    runCommand s = .next (report .illegalOp s) := by
  simp only [runCommand, hd, raise]

theorem runCommand_reservedField {s : State} (hd : decode s.pend = .reservedField) :
    runCommand s = .next (report .reservedField s) := by
  simp only [runCommand, hd, raise]

/-- No command faults or refuses: INIT validates its settings, and every other command is gated. -/
theorem exec_isNext (i : Instr) (s : State) : ∃ t, exec i s = .next t := by
  by_cases hi : i = .init
  · subst hi
    by_cases hinvalid : SettingsInvalid s.settings
    · exact ⟨_, exec_init_invalid hinvalid⟩
    · obtain ⟨b, hb⟩ := exec_init_valid hinvalid
      exact ⟨_, hb⟩
  · rw [exec_eq_gated hi]
    exact gated_isNext _ _ _ _

/-- Settles O5: the turn runs the command, which answers a next state, or reports the decode error. -/
theorem stepRunsTheDecodedCommand : Obligations.StepRunsTheDecodedCommand := by
  refine fun s hb hcore => ⟨fun i hd => ?_, fun hd => step_of_runCommand hb hcore (runCommand_illegalOp hd),
    fun hd => step_of_runCommand hb hcore (runCommand_reservedField hd)⟩
  obtain ⟨t, ht⟩ := exec_isNext i { s with events := s.events.tail }
  exact ⟨t, ht, step_of_runCommand hb hcore (runCommand_of_exec hd ht)⟩

/-! ### What every command leaves alone (R303, R311) -/

/-- The host's side is unchanged, and no interrupt bit is lost. -/
structure CommandFrame (s t : State) : Prop where
  host : KeepsHostSide s t
  irqKept : s.irqStatus &&& t.irqStatus = s.irqStatus

/-- A set bit stays set when more bits are set. -/
theorem bitVec_and_or_self {w : Nat} (x m : BitVec w) : x &&& (x ||| m) = x := by
  ext j hj
  simpa using Or.inl

theorem CommandFrame.of_eq {s t : State} (hhost : KeepsHostSide s t) (hirq : t.irqStatus = s.irqStatus) :
    CommandFrame s t := ⟨hhost, by rw [hirq, BitVec.and_self]⟩

theorem CommandFrame.of_slotFrame {s t : State} (h : SlotFrame s t) : CommandFrame s t := ⟨h.host, h.irqKept⟩

theorem report_commandFrame (c : ErrCode) (s : State) : CommandFrame s (report c s) :=
  ⟨(report_keeps c s).1, bitVec_and_or_self _ _⟩

theorem chunkEffect_slotFrame (p : Params) (s : State) : SlotFrame s (chunkEffect p s) :=
  slotFrame_of_session (analyzeValues_slot p _ _).2.2 rfl

theorem rsDecEffect_commandFrame (d k : Nat) (s : State) : CommandFrame s (rsDecEffect d k s) := by
  unfold rsDecEffect
  split <;> exact .of_eq ⟨rfl, rfl, rfl, rfl, rfl, rfl, rfl, rfl, rfl⟩ rfl

theorem CommandEnd.commandFrame {i : Instr} {s t : State} (h : CommandEnd s i t) : CommandFrame s t := by
  cases h with
  | error _ c => exact report_commandFrame c s
  | initFailed => exact ⟨⟨rfl, rfl, rfl, rfl, rfl, rfl, rfl, rfl, rfl⟩, bitVec_and_or_self _ _⟩
  | analyze => exact .of_slotFrame (analyzeValues_slot params _ s).2.2
  | chunk => exact .of_slotFrame (chunkEffect_slotFrame params s)
  | candPush => exact .of_slotFrame (slotStep_slotFrame params.cfg _ _ s)
  | rsDec d k => exact rsDecEffect_commandFrame d k s
  | _ => exact .of_eq ⟨rfl, rfl, rfl, rfl, rfl, rfl, rfl, rfl, rfl⟩ rfl

/-- The word in PEND ends in the state of a command, or in the report of a decode error. -/
theorem runCommand_commandFrame (s : State) : ∃ t, runCommand s = .next t ∧ CommandFrame s t := by
  cases hd : decode s.pend with
  | illegalOp => exact ⟨_, runCommand_illegalOp hd, report_commandFrame _ s⟩
  | reservedField => exact ⟨_, runCommand_reservedField hd, report_commandFrame _ s⟩
  | ok i =>
    obtain ⟨t, ht⟩ := exec_isNext i s
    exact ⟨t, runCommand_of_exec hd ht, (exec_end ht).commandFrame⟩

/-- The completion sets CMD_DONE (R303). -/
theorem complete_cmdDone (s : State) : (complete s).irqStatus.getLsbD 0 = true := by simp

theorem complete_irqKept {s t : State} (h : s.irqStatus &&& t.irqStatus = s.irqStatus) :
    s.irqStatus &&& (complete t).irqStatus = s.irqStatus := by
  calc s.irqStatus &&& (t.irqStatus ||| 0b0001)
      = s.irqStatus &&& (t.irqStatus &&& (t.irqStatus ||| 0b0001)) := by rw [← BitVec.and_assoc, h]
    _ = s.irqStatus := by rw [bitVec_and_or_self, h]

/-- Settles O6: the turn completes a command that kept PEND, the schedule and the interrupt bits; an idle turn does
nothing. -/
theorem coreStepEndsEveryCommand : Obligations.CoreStepEndsEveryCommand := by
  refine fun s hcore => ⟨fun hb => ?_, fun hb => (step_of_coreIsNext hcore).trans (coreTurn_idle hb)⟩
  obtain ⟨t, hrun, hhost, hirq⟩ := runCommand_commandFrame { s with events := s.events.tail }
  exact ⟨complete t, step_of_runCommand hb hcore hrun, complete_busy t, complete_cmdDone t, complete_irqKept hirq,
    hhost.pend, hhost.events⟩

/-! ### The error report, bit by bit (R300, R305) -/

theorem one_le_code (c : ErrCode) : 1 ≤ c.code := by cases c <;> decide

theorem code_le_seven (c : ErrCode) : c.code ≤ 7 := by cases c <;> decide

/-- The flag of code `c` is bit `c - 1`. -/
theorem getLsbD_errFlag (c : ErrCode) (j : Nat) : (1#7 <<< (c.code - 1)).getLsbD j = decide (j + 1 = c.code) := by
  have hlow := one_le_code c
  have hhigh := code_le_seven c
  rw [← BitVec.twoPow_eq, BitVec.getLsbD_twoPow, ← Bool.decide_and]
  exact decide_eq_decide.2 (by omega)

/-- ERR is bit 3 of IRQ_STATUS. -/
theorem getLsbD_errIrq (j : Nat) : (0b1000 : BitVec 4).getLsbD j = decide (j = 3) := by
  rw [show (0b1000 : BitVec 4) = BitVec.twoPow 4 3 from rfl, BitVec.getLsbD_twoPow]
  simp [eq_comm]

/-- Settles O9: a report ORs one flag and ERR into their registers; the acknowledgment is the W1C write. -/
theorem errorReportIsStickyAndKeepsTheFirstCode : Obligations.ErrorReportIsStickyAndKeepsTheFirstCode := by
  refine fun c s => ⟨fun j _ => ?_, report_errCode c s, fun j _ => ?_, rfl,
    fun v => ⟨fun j hj => getLsbD_w1c s.errFlags v hj, rfl⟩⟩
  · rw [report_errFlags, BitVec.getLsbD_or, getLsbD_errFlag]
  · rw [report_irqStatus, BitVec.getLsbD_or, getLsbD_errIrq]

/-! ### The acceptance of a command (R302) -/

theorem issueCommand_idle (w : Word) {s : State} (hb : s.busy = false) :
    issueCommand w s = { s with pend := w, busy := true } := by
  simp [issueCommand, hb]

theorem issueCommand_busy (w : Word) {s : State} (hb : s.busy = true) : issueCommand w s = report .busy s := by
  simp [issueCommand, hb]

theorem hostWrite_cmd (w : Word) (s : State) :
    hostWrite 0x01C .four w s = .next (issueCommand w (answer 0 false s)) := hostWrite_register (r := .cmd) rfl w s

/-- A narrow access to CMD is illegal (20_memory R82). -/
theorem accessLegal_cmd_narrow {n : AccessSize} (hn : n ≠ .four) : accessLegal (0x01C : Offset).toNat n = false :=
  Bool.eq_false_iff.2 fun hl => hn (size_four_of_register hl rfl)

/-- Settles O7: a 32-bit write to CMD issues the command after the bus is answered, a narrow one is illegal. -/
theorem cmdWriteIsAcceptedOrDropped : Obligations.CmdWriteIsAcceptedOrDropped := by
  refine fun s w rest => ⟨fun he => ?_, fun n hn he => ?_⟩
  · rw [step_write he, hostWrite_cmd]
    exact ⟨fun hb => ⟨⟨0, false⟩, congrArg _ (issueCommand_idle w hb)⟩,
      fun hb => ⟨⟨0, false⟩, congrArg _ (issueCommand_busy w hb)⟩⟩
  · rw [step_write he, hostWrite_illegal (accessLegal_cmd_narrow hn)]
    exact ⟨_, rfl⟩

end Sys2Proof.Proofs

/-! PROOFS. What stops the machine (70_reset R352): every event answers a next state, but for the accesses to a pending
command's buffers and injection registers. -/

namespace Sys2Proof.Proofs

open Sys2Proof.Machine

/-- The outcome is a fault exactly when `p` holds, and a refusal never: otherwise there is a next state. -/
def FaultsExactlyWhen (p : Prop) (o : Host.Outcome State Fault Refusal) : Prop :=
  ((∃ f, o = .fault f) ↔ p) ∧ ∀ r, o ≠ .refused r

theorem FaultsExactlyWhen.congr {p q : Prop} {o : Host.Outcome State Fault Refusal} (h : FaultsExactlyWhen p o)
    (hpq : p ↔ q) : FaultsExactlyWhen q o := ⟨h.1.trans hpq, h.2⟩

theorem faultsExactlyWhen_next {p : Prop} (hp : ¬p) (t : State) : FaultsExactlyWhen p (.next t) :=
  ⟨⟨nofun, fun h => absurd h hp⟩, nofun⟩

/-- The shape of every access that R352 guards. -/
theorem faultsExactlyWhen_busy (b : Bool) (f : Fault) (t : State) :
    FaultsExactlyWhen (b = true) (if b then .fault f else .next t) := by
  cases b with
  | false => exact faultsExactlyWhen_next Bool.false_ne_true t
  | true => exact ⟨⟨fun _ => rfl, fun _ => ⟨f, rfl⟩⟩, nofun⟩

/-! ### Host accesses -/

theorem hostRead_faultsExactlyWhen (a : Offset) (n : AccessSize) (s : State) :
    FaultsExactlyWhen (s.busy = true ∧ HazardAccess (.read a n)) (hostRead a n s) := by
  cases hl : accessLegal a.toNat n with
  | false =>
    rw [hostRead_illegal hl]
    exact faultsExactlyWhen_next (by simp [HazardAccess, hl]) _
  | true =>
    cases hr : regionOf a.toNat <;> simp only [hostRead, hl, hr, if_true]
    case cwBuf | outBuf => exact (faultsExactlyWhen_busy s.busy _ _).congr (by simp [HazardAccess, hl, hr])
    case registers => split <;> exact faultsExactlyWhen_next (by simp [HazardAccess, hr]) _
    case payload | inBuf | reserved => exact faultsExactlyWhen_next (by simp [HazardAccess, hr]) _

/-- Of the registers only the two injection registers are guarded. -/
theorem writeReg_faultsExactlyWhen (r : Reg) (a : Offset) (v : Word) (s : State) :
    FaultsExactlyWhen (s.busy = true ∧ (r = .candIn ∨ r = .lagIn)) (writeReg r a v s) := by
  cases r
  case candIn | lagIn => exact (faultsExactlyWhen_busy s.busy _ _).congr (by simp)
  all_goals exact faultsExactlyWhen_next (by simp) _

/-- CAND_IN and LAG_IN have one offset each (10_state R49, R50). -/
theorem regAt_injection_iff (a : Nat) :
    (regAt a = some .candIn ∨ regAt a = some .lagIn) ↔ (a = 0x03C ∨ a = 0x040) := by
  constructor
  · rintro (h | h) <;> unfold regAt at h <;> split at h <;> cases h
    · exact .inl rfl
    · exact .inr rfl
  · rintro (rfl | rfl)
    · exact .inl rfl
    · exact .inr rfl

/-- CAND_IN and LAG_IN lie in the register region. -/
theorem ne_injection_of_region {a : Nat} (h : regionOf a ≠ .registers) : ¬(a = 0x03C ∨ a = 0x040) := by
  rintro (rfl | rfl) <;> exact h rfl

/-- The offsets whose legal writes are hazards while BUSY = 1 (70_reset R352). -/
def WriteGuarded (a : Nat) : Prop :=
  regionOf a = .inBuf ∨ regionOf a = .outBuf ∨ regionOf a = .cwBuf ∨ a = 0x03C ∨ a = 0x040

theorem hazardAccess_write_iff (a : Offset) (n : AccessSize) (v : Word) :
    HazardAccess (.write a n v) ↔ accessLegal a.toNat n = true ∧ WriteGuarded a.toNat := Iff.rfl

/-- In the register region the guarded offsets are those of the two injection registers. -/
theorem writeGuarded_register_iff {a : Nat} (h : regionOf a = .registers) :
    WriteGuarded a ↔ regAt a = some .candIn ∨ regAt a = some .lagIn := by
  simp [WriteGuarded, h, regAt_injection_iff]

theorem hostWriteEffect_faultsExactlyWhen (a : Offset) (n : AccessSize) (v : Word) (s : State) :
    FaultsExactlyWhen (s.busy = true ∧ WriteGuarded a.toNat) (hostWriteEffect a n v s) := by
  cases hr : regionOf a.toNat <;> simp only [hostWriteEffect, hr]
  case registers =>
    rw [writeGuarded_register_iff hr]
    cases hreg : regAt a.toNat with
    | none => exact faultsExactlyWhen_next (by simp) _
    | some r => exact (writeReg_faultsExactlyWhen r a v s).congr (by simp)
  case cwBuf | inBuf | outBuf => exact (faultsExactlyWhen_busy s.busy _ _).congr (by simp [WriteGuarded, hr])
  case payload | reserved =>
    have hinj : ¬(a.toNat = 0x03C ∨ a.toNat = 0x040) := ne_injection_of_region (by simp [hr])
    exact faultsExactlyWhen_next (by simp [WriteGuarded, hr, hinj]) _

theorem hostWrite_faultsExactlyWhen (a : Offset) (n : AccessSize) (v : Word) (s : State) :
    FaultsExactlyWhen (s.busy = true ∧ HazardAccess (.write a n v)) (hostWrite a n v s) := by
  rw [hazardAccess_write_iff]
  cases hl : accessLegal a.toNat n with
  | false =>
    rw [hostWrite_illegal hl]
    exact faultsExactlyWhen_next (by simp) _
  | true =>
    rw [hostWrite, if_pos hl]
    exact (hostWriteEffect_faultsExactlyWhen a n v (answer 0 false s)).congr (by simp)

/-! ### Events and steps -/

/-- The core's turn always has a next state: no command faults or refuses (93 section 1). -/
theorem coreTurn_isNext (s : State) : ∃ t, coreTurn s = .next t := by
  cases hb : s.busy with
  | false => exact ⟨s, coreTurn_idle hb⟩
  | true =>
    obtain ⟨t, ht, -⟩ := runCommand_commandFrame s
    exact ⟨complete t, by rw [coreTurn, if_pos hb, coreStep, ht, finishCommand_next]⟩

theorem coreTurn_faultsExactlyWhen {p : Prop} (hp : ¬p) (s : State) : FaultsExactlyWhen p (coreTurn s) := by
  obtain ⟨t, ht⟩ := coreTurn_isNext s
  exact ht ▸ faultsExactlyWhen_next hp t

theorem runEvent_faultsExactlyWhen (e : Event) (s : State) :
    FaultsExactlyWhen (s.busy = true ∧ HazardAccess e) (runEvent e s) := by
  cases e with
  | read a n => exact hostRead_faultsExactlyWhen a n s
  | write a n v => exact hostWrite_faultsExactlyWhen a n v s
  | core => exact coreTurn_faultsExactlyWhen (fun h => h.2) s
  | reset => exact faultsExactlyWhen_next (fun h => h.2) _

theorem step_of_events {s : State} {e : Event} {rest : List Event} (h : s.events = e :: rest) :
    step s = runEvent e { s with events := rest } := by
  simp only [step, advance, h]

/-- Settles O52: the next event decides, and with nothing scheduled the core has its turn. -/
theorem onlyBusyHazardsStopTheMachine : Obligations.OnlyBusyHazardsStopTheMachine := by
  intro s
  cases he : s.events with
  | nil =>
    rw [step_of_coreIsNext (.inl he)]
    exact coreTurn_faultsExactlyWhen (by simp) _
  | cons e rest =>
    rw [step_of_events he]
    exact (runEvent_faultsExactlyWhen e { s with events := rest }).congr (by simp)

end Sys2Proof.Proofs

/-! PROOFS. The reset values (70_reset R340, R341). -/

namespace Sys2Proof.Proofs

open Sys2Proof.Machine

theorem step_reset {s : State} {rest : List Event} (h : s.events = .reset :: rest) :
    step s = .next (resetInput { s with events := rest }) := step_of_events h

/-- No register shows what the reset input keeps, the schedule and the number of resets. -/
theorem readReg_resetInput (r : Reg) (s : State) : readReg r (resetInput s) = readReg r State.reset := by
  cases r <;> rfl

/-- The registers that read 0 after reset: all but ID and the settings (70_reset R340). -/
theorem readReg_reset_zero : ∀ r ∈ [Reg.cmd, .status, .errFlags, .irqStatus, .irqEn, .result, .cand, .candCnt, .candIn,
    .lagIn, .chunkCnt, .frameCnt, .rejectCnt, .payLen, .decProg], readReg r State.reset = 0 := by decide

/-- No interrupt is pending or enabled after reset. -/
theorem irqLevel_resetInput (s : State) : irqLevel (resetInput s) = false :=
  calc irqLevel (resetInput s) = irqLevel State.reset := rfl
    _ = false := by decide

/-- The session invariant does not see the schedule and the number of resets. -/
theorem reset_sessionInv (c : Cfg) : SessionInv c State.reset :=
  sessionInv_congr (resetInput_sessionInv c State.reset) ⟨rfl, rfl, rfl⟩ rfl

theorem reset_errorsConsistent : ErrorsConsistent State.reset := ⟨fun _ => rfl, fun _ => rfl⟩

/-- Settles O56: nothing is written, READY = 0, and no error is recorded. -/
theorem resetMeetsTheInvariants : Obligations.ResetMeetsTheInvariants :=
  ⟨reset_mem_wf, reset_sessionInv params.cfg, reset_errorsConsistent⟩

/-- Settles O57: the next state is that of the reset input, which differs from `State.reset` in nothing a register shows. -/
theorem resetInputGivesTheResetValues : Obligations.ResetInputGivesTheResetValues := by
  refine fun s rest he => ⟨_, step_reset he, rfl, rfl, rfl, ?_⟩
  simp only [readReg_resetInput]
  exact ⟨rfl, rfl, rfl, rfl, rfl, rfl, rfl, readReg_reset_zero, irqLevel_resetInput _, rfl, rfl,
    fun _ => rfl, fun _ => rfl, fun _ => rfl⟩

end Sys2Proof.Proofs
